-- ==== Sys2Proof/Word.lean ====
section
/-! DEFINITION. The bit-vector types of the ports (10_state.md R21, R22, R24). -/

namespace Sys2Proof

/-- One byte of a sequence: an unsigned 8-bit lane (R22). -/
abbrev Byte := BitVec 8

/-- A 64-bit bus: the value buses `val_in` and `vout`, the lane buses `bin` and `bout` (R21, R22, R24). -/
abbrev Word := BitVec 64

/-- The command word on the `cmd` port (R21, R60). -/
abbrev Cmd := BitVec 8

end Sys2Proof
end

