-- ==== Sys2Proof/Config.lean ====
section
/-! DEFINITION. What an implementation fixes (00_scope.md R7) and the values the spec leaves unspecified
(93_implementation_defined.md U1, U3). -/

namespace Sys2Proof

/-- The three parameters of R7. They are arguments of every definition that depends on them; the machine's
state carries them and no step changes them (DESIGN CHOICE, log 1, safe). -/
structure Params where
  /-- LATENCY: periods from a request to its response; 0 means combinational (R27, R28). -/
  latency : Nat
  /-- LEN_BITS: the width of the `in_len` port, at least 4 (R23). -/
  lenBits : Nat
  /-- FIX_ALL: whether DECF.B and DECF.F exist (R122). -/
  fixAll  : Bool
deriving DecidableEq, Repr, Inhabited

/-- The defaults of R7: LATENCY = 0, LEN_BITS = 4, FIX_ALL = 1. -/
def Params.default : Params := ⟨0, 4, true⟩

/-- The range R7 gives each parameter: only LEN_BITS has one ("at least 4"). -/
abbrev Params.WF (p : Params) : Prop := 4 ≤ p.lenBits

namespace Config

/-! Free values. R29 and R174 leave the outputs unspecified in some periods with LATENCY > 0; "a model draws any
value for them". The n-th draw is an opaque function of n, one per port, with no body: no proof can see its value
(DESIGN CHOICE of form, log 5 and log 6, safe). -/

/-- `rsp_valid` before the first reset edge (R174, U3). -/
opaque freeRspValid : Nat → Bool
/-- `bout` while unspecified (R29, U1). -/
opaque freeBout : Nat → Word
/-- `out_len` while unspecified (R29, U1). -/
opaque freeOutLen : Nat → BitVec 4
/-- `vout` while unspecified (R29, U1). -/
opaque freeVout : Nat → Word
/-- `err` while unspecified (R29, U1). -/
opaque freeErr : Nat → Bool
/-- `err_cause` while unspecified (R29, U1). -/
opaque freeErrCause : Nat → BitVec 2
/-- `err_minlen` while unspecified (R29, U1). -/
opaque freeErrMinlen : Nat → BitVec 4
/-- The valid bit of a pipeline stage after a power transition (R164, R174). -/
opaque freeStageValid : Nat → Bool

end Config
end Sys2Proof
end

