-- ==== Sys2Proof/Syntax.lean ====
section
/-! DEFINITION. The command set BECM-1: one constructor per row of spec/opcode_table.json (30_encoding.md R65).
No command has an operand field; operands arrive on ports (R60). -/

namespace Sys2Proof

/-- The seven value types of 00_scope.md R6. -/
inductive PrimType where
  | byte | short | char | int | long | float | double
deriving DecidableEq, Repr, Inhabited

/-- How a decoded value's bits are read (30_encoding.md R62). -/
inductive Kind where
  | sint | uint | fp
deriving DecidableEq, Repr, Inhabited

/-- The operation family (30_encoding.md R63). -/
inductive Op where
  | enc | decs | decf
deriving DecidableEq, Repr, Inhabited

/-- The 21 commands (30_encoding.md R65). -/
inductive Instr where
  /-- ENC.B, 40_encode.md R81. -/
  | encB
  /-- ENC.S, R82. -/
  | encS
  /-- ENC.C, R83. -/
  | encC
  /-- ENC.I, R84. -/
  | encI
  /-- ENC.L, R85. -/
  | encL
  /-- ENC.F, R86. -/
  | encF
  /-- ENC.D, R87. -/
  | encD
  /-- DECS.B, 41_decode_seq.md R106. -/
  | decsB
  /-- DECS.S, R107. -/
  | decsS
  /-- DECS.C, R108. -/
  | decsC
  /-- DECS.I, R109. -/
  | decsI
  /-- DECS.L, R110. -/
  | decsL
  /-- DECS.F, R111. -/
  | decsF
  /-- DECS.D, R112. -/
  | decsD
  /-- DECF.B, 42_decode_fixed.md R123; exists only with FIX_ALL = 1. -/
  | decfB
  /-- DECF.S, R124. -/
  | decfS
  /-- DECF.C, R125. -/
  | decfC
  /-- DECF.I, R126. -/
  | decfI
  /-- DECF.L, R127. -/
  | decfL
  /-- DECF.F, R128; exists only with FIX_ALL = 1. -/
  | decfF
  /-- DECF.D, R129. -/
  | decfD
deriving DecidableEq, Repr, Inhabited

end Sys2Proof
end

