-- ==== Sys2Proof/WellFormed.lean ====
section
/-! DEFINITION. Which commands exist for a value of FIX_ALL (42_decode_fixed.md R122). -/

namespace Sys2Proof

/-- A command exists unless it is DECF.B or DECF.F and FIX_ALL = 0 (R66, R122). -/
def Instr.wf (fixAll : Bool) : Instr → Bool
  | .decfB | .decfF => fixAll
  | .encB | .encS | .encC | .encI | .encL | .encF | .encD => true
  | .decsB | .decsS | .decsC | .decsI | .decsL | .decsF | .decsD => true
  | .decfS | .decfC | .decfI | .decfL | .decfD => true

end Sys2Proof
end

