-- ==== Sys2Proof/Decode.lean ====
section
/-! DEFINITION. From the command word to the command and back (30_encoding.md R60 to R67, R71). -/

namespace Sys2Proof

/-! ## The fields of the word (R60) -/

/-- RSV, `cmd[7:6]` (R64). -/
def fieldRsv (c : Cmd) : BitVec 2 := c.extractLsb' 6 2
/-- OP, `cmd[5:4]` (R63). -/
def fieldOp (c : Cmd) : BitVec 2 := c.extractLsb' 4 2
/-- KIND, `cmd[3:2]` (R62). -/
def fieldKind (c : Cmd) : BitVec 2 := c.extractLsb' 2 2
/-- SZ, `cmd[1:0]` (R61). -/
def fieldSz (c : Cmd) : BitVec 2 := c.extractLsb' 0 2

/-- The family an OP value selects; `11` is reserved (R63). -/
def opOf (v : BitVec 2) : Option Op :=
  if v = 0b00#2 then some .enc
  else if v = 0b01#2 then some .decs
  else if v = 0b10#2 then some .decf
  else none

/-- The kind a KIND value selects; `11` is reserved (R62). -/
def kindOf (v : BitVec 2) : Option Kind :=
  if v = 0b00#2 then some .sint
  else if v = 0b01#2 then some .uint
  else if v = 0b10#2 then some .fp
  else none

/-- The type a kind and an SZ value name, if any: SINT at every width, UINT only at width 2, FP only at widths
4 and 8 (R66). -/
def typeOf (k : Kind) (sz : BitVec 2) : Option PrimType :=
  match k with
  | .sint =>
    if sz = 0b00#2 then some .byte
    else if sz = 0b01#2 then some .short
    else if sz = 0b10#2 then some .int
    else some .long
  | .uint => if sz = 0b01#2 then some .char else none
  | .fp =>
    if sz = 0b10#2 then some .float
    else if sz = 0b11#2 then some .double
    else none

/-- The SZ code of a type (R61, R65). -/
def PrimType.sz : PrimType → BitVec 2
  | .byte => 0b00#2
  | .short => 0b01#2
  | .char => 0b01#2
  | .int => 0b10#2
  | .long => 0b11#2
  | .float => 0b10#2
  | .double => 0b11#2

/-- The kind of a type (R62). -/
def PrimType.kind : PrimType → Kind
  | .byte => .sint
  | .short => .sint
  | .char => .uint
  | .int => .sint
  | .long => .sint
  | .float => .fp
  | .double => .fp

/-- The command of a family and a type (R65). -/
def Instr.ofOpType : Op → PrimType → Instr
  | .enc, .byte => .encB
  | .enc, .short => .encS
  | .enc, .char => .encC
  | .enc, .int => .encI
  | .enc, .long => .encL
  | .enc, .float => .encF
  | .enc, .double => .encD
  | .decs, .byte => .decsB
  | .decs, .short => .decsS
  | .decs, .char => .decsC
  | .decs, .int => .decsI
  | .decs, .long => .decsL
  | .decs, .float => .decsF
  | .decs, .double => .decsD
  | .decf, .byte => .decfB
  | .decf, .short => .decfS
  | .decf, .char => .decfC
  | .decf, .int => .decfI
  | .decf, .long => .decfL
  | .decf, .float => .decfF
  | .decf, .double => .decfD

/-- The family of a command (R65). -/
def Instr.op : Instr → Op
  | .encB | .encS | .encC | .encI | .encL | .encF | .encD => .enc
  | .decsB | .decsS | .decsC | .decsI | .decsL | .decsF | .decsD => .decs
  | .decfB | .decfS | .decfC | .decfI | .decfL | .decfF | .decfD => .decf

/-- The type of a command (R65). -/
def Instr.ty : Instr → PrimType
  | .encB | .decsB | .decfB => .byte
  | .encS | .decsS | .decfS => .short
  | .encC | .decsC | .decfC => .char
  | .encI | .decsI | .decfI => .int
  | .encL | .decsL | .decfL => .long
  | .encF | .decsF | .decfF => .float
  | .encD | .decsD | .decfD => .double

/-! ## Decoding -/

/-- Why a word is reserved. The spec reports every reserved word alike (R67); the names tell the five ways apart
and no output shows them (DESIGN CHOICE, log 10, safe). -/
inductive DecodeReject where
  /-- RSV is not `00` (R64). -/
  | reservedRsv
  /-- OP is `11` (R63). -/
  | reservedOp
  /-- KIND is `11` (R62). -/
  | reservedKind
  /-- KIND and SZ name no type (R66). -/
  | noSuchType
  /-- DECF.B or DECF.F with FIX_ALL = 0 (R122). -/
  | absentFixedForm
deriving DecidableEq, Repr

/-- The command a word stands for, or the reason it is reserved. Total on all 256 words; each is one command,
so there is no length to decode (R60, R71). -/
def decode (fixAll : Bool) (c : Cmd) : Except DecodeReject Instr :=
  if fieldRsv c ≠ 0b00#2 then .error .reservedRsv
  else match opOf (fieldOp c) with
    | none => .error .reservedOp
    | some op => match kindOf (fieldKind c) with
      | none => .error .reservedKind
      | some k => match typeOf k (fieldSz c) with
        | none => .error .noSuchType
        | some t =>
          if (Instr.ofOpType op t).wf fixAll then .ok (Instr.ofOpType op t)
          else .error .absentFixedForm

/-- `legal(c)`, written as R66 writes it. -/
def legal (fixAll : Bool) (c : Cmd) : Bool :=
  c.extractLsb' 6 2 == 0b00#2
  && c.extractLsb' 4 2 != 0b11#2
  && [(0b00#2, 0b00#2), (0b00#2, 0b01#2), (0b00#2, 0b10#2), (0b00#2, 0b11#2),
      (0b01#2, 0b01#2), (0b10#2, 0b10#2), (0b10#2, 0b11#2)].contains
        (c.extractLsb' 2 2, c.extractLsb' 0 2)
  && !(!fixAll && c.extractLsb' 4 2 == 0b10#2
        && (c.extractLsb' 0 4 == 0b0000#4 || c.extractLsb' 0 4 == 0b1010#4))

/-! ## Encoding -/

/-- The word of each command, from the opcode map R65. -/
def encode : Instr → Cmd
  | .encB => 0x00#8
  | .encS => 0x01#8
  | .encC => 0x05#8
  | .encI => 0x02#8
  | .encL => 0x03#8
  | .encF => 0x0A#8
  | .encD => 0x0B#8
  | .decsB => 0x10#8
  | .decsS => 0x11#8
  | .decsC => 0x15#8
  | .decsI => 0x12#8
  | .decsL => 0x13#8
  | .decsF => 0x1A#8
  | .decsD => 0x1B#8
  | .decfB => 0x20#8
  | .decfS => 0x21#8
  | .decfC => 0x25#8
  | .decfI => 0x22#8
  | .decfL => 0x23#8
  | .decfF => 0x2A#8
  | .decfD => 0x2B#8

/-- The decoder on a word as spec/opcode_table.json numbers its bits, with the default FIX_ALL = 1. A command is
8 bits (R60): another width, or bits beyond the width, is no command. -/
def decodeTableWord (nbits w : Nat) : Option Instr :=
  if nbits = 8 ∧ w < 256 then (decode Params.default.fixAll (BitVec.ofNat 8 w)).toOption else none

end Sys2Proof
end

