-- ==== Sys2Proof/Machine/State.lean ====
section
/-! DEFINITION. The machine's state: ports, pipeline, parameters (10_state.md R20 to R32), and its value right after
reset (70_reset_and_hazards.md R171). -/

namespace Sys2Proof.Machine

/-- One set of values on the input ports: R21, R22, R23, and `rst` of R170. -/
structure Inputs where
  /-- Reset, active high; the port exists only with LATENCY > 0 and is not read otherwise (R170, log 12). -/
  rst       : Bool
  /-- `req_valid`: whether the other ports form a request (R21). -/
  reqValid  : Bool
  /-- `cmd`: the command word (R21). -/
  cmd       : Cmd
  /-- `val_in`: the value to encode (R21). -/
  valIn     : Word
  /-- `bin`: eight byte lanes, lane 0 on top (R22). -/
  bin       : Word
  /-- `in_present`: whether the sequence is present (R23). -/
  inPresent : Bool
  /-- `in_len`: the number on the LEN_BITS-bit length port (R23); read through `portLen` (log 8). -/
  inLen     : Nat
deriving DecidableEq, Repr, Inhabited

/-- Nothing requested: every port 0 (DESIGN CHOICE, log 3). -/
def Inputs.idle : Inputs := ⟨false, false, 0, 0, 0, false, 0⟩

/-- The output ports of R24 other than `rsp_valid`: one response, and the payload of a pipeline stage (R28). -/
structure Response where
  bout      : Word
  outLen    : BitVec 4
  vout      : Word
  err       : Bool
  errCause  : BitVec 2
  errMinlen : BitVec 4
deriving DecidableEq, Repr, Inhabited

/-- All the output ports of R24. -/
structure Outputs where
  rspValid : Bool
  rsp      : Response
deriving DecidableEq, Repr, Inhabited

/-- The error causes of 60_exceptions.md R146. -/
inductive Cause where
  | none | absent | tooShort | illegalCmd
deriving DecidableEq, Repr, Inhabited

/-- The machine in one clock period (or, with LATENCY = 0, at one presentation of inputs). -/
structure State where
  /-- LATENCY, LEN_BITS, FIX_ALL (R7); no step changes them (log 1). -/
  params    : Params
  /-- The inputs of this period. -/
  inp       : Inputs
  /-- The inputs the host will present in the periods after this one, in order (the model's own, log 3). -/
  host      : List Inputs
  /-- The pipeline S[1] .. S[L], S[1] first: `none` for a stage whose valid bit is 0 (R28, R32). -/
  pipe      : List (Option Response)
  /-- Whether a reset edge has come since power-up; read only with LATENCY > 0 (R174, the model's own, log 6). -/
  resetDone : Bool
  /-- The outputs during the period that the last step closed (R27, R28, log 2). -/
  out       : Outputs
  /-- How many unspecified output values have been drawn (R29, the model's own, log 5). -/
  draws     : Nat
deriving DecidableEq, Repr

/-- No step of BECM stops: an error is a response (60_exceptions.md R143, R148, R151) and `codec` is total
(30_encoding.md R70). Nothing raises a fault, so the type is empty (log 9, safe). -/
inductive Fault where
deriving DecidableEq, Repr

/-- Why a command has no meaning. No arm of `exec` raises one: all 21 commands are modelled. -/
inductive Refusal where
  /-- Raised only by an arm of `exec` whose command has no meaning yet (none has); safe. -/
  | notModelled (mnemonic : String)
deriving DecidableEq, Repr

/-- The machine with parameters `p` right after reset: every pipeline valid bit 0 (R171), no request presented, no
output shown yet. What the spec gives no value is a DESIGN CHOICE: the ports and the host's list (log 3), `out`
(log 4), `draws` (log 5). -/
def State.resetWith (p : Params) : State where
  params    := p
  inp       := Inputs.idle
  host      := []
  pipe      := List.replicate p.latency none
  resetDone := true
  out       := ⟨false, ⟨0, 0, 0, false, 0, 0⟩⟩
  draws     := 0

/-- The machine right after reset with the default parameters of R7. -/
def State.reset : State := State.resetWith Params.default

end Sys2Proof.Machine
end

