-- ==== Sys2Proof/Machine/Flags.lean ====
section
/-! DEFINITION. The error outputs `err`, `err_cause`, `err_minlen` (60_exceptions.md R144, R146, R161). BECM has no
flags (10_state.md R26); these three ports belong to one response and are what a command reports beside its value. -/

namespace Sys2Proof.Machine

/-- The 2-bit code of a cause on `err_cause` (R146). -/
def Cause.code : Cause → BitVec 2
  | .none => 0#2
  | .absent => 1#2
  | .tooShort => 2#2
  | .illegalCmd => 3#2

/-- `err` is 1 exactly when `err_cause` is not 0 (R146). -/
def Cause.err (c : Cause) : Bool := c.code != 0#2

/-- `err_minlen`: the required length W for ABSENT and TOO_SHORT, 0 for ILLEGAL_CMD and for no error (R144). -/
def Cause.minlen (c : Cause) (w : Nat) : BitVec 4 :=
  match c with
  | .none => 0
  | .absent => BitVec.ofNat 4 w
  | .tooShort => BitVec.ofNat 4 w
  | .illegalCmd => 0

end Sys2Proof.Machine
end

