-- ==== Sys2Proof/Machine/Operands.lean ====
section
/-! DEFINITION. Lanes, widths, operand assembly and extension (10_state.md R22, R23; 20_memory.md R42; 30_encoding.md
R61, R68, R69), and how a host puts a sequence on the ports (10_state.md R22, R23). -/

namespace Sys2Proof.Machine

/-! ## Widths and lanes -/

/-- W, the width in bytes that SZ selects: `1 << SZ` (R61). -/
def widthOf (sz : BitVec 2) : Nat := 1 <<< sz.toNat

/-- n = 8W, the width in bits (R61, R13). -/
def bitsOf (sz : BitVec 2) : Nat := 8 * widthOf sz

/-- The width in bytes of a type (R6). -/
def width (t : PrimType) : Nat := widthOf t.sz

/-- The width in bits of a type (R6). -/
def bits (t : PrimType) : Nat := bitsOf t.sz

/-- Lane k of a lane bus, `bus[63-8k : 56-8k]`, for k in 0..7 (R22). -/
def lane (bus : Word) (k : Nat) : Byte := bus.extractLsb' (56 - 8 * k) 8

/-! ## The encode operand -/

/-- The n bits an encode takes from `val_in`; the bits above are ignored (R68). -/
def encodeOperand (sz : BitVec 2) (val : Word) : BitVec (bitsOf sz) := val.extractLsb' 0 (bitsOf sz)

/-! ## The decode operand and result -/

/-- `assemble(bin, W)`, the first W lanes of `bin` with lane 0 on top: `bin[63 : 64-n]` (R69, first form). -/
def assemble (sz : BitVec 2) (bin : Word) : BitVec (bitsOf sz) :=
  bin.extractLsb' (64 - bitsOf sz) (bitsOf sz)

/-- The OR, over the lanes k below `m`, of lane k widened to 64 bits and shifted to its place (R69, R102). -/
def orLanes (w : Nat) (bin : Word) : Nat → Word
  | 0 => 0
  | m + 1 => orLanes w bin m ||| ((lane bin m).setWidth 64 <<< (8 * (w - 1 - m)))

/-- `assemble(bin, W)` as the source's algorithm has it, lane by lane (R69, second form; R102). -/
def assembleByLanes (sz : BitVec 2) (bin : Word) : BitVec (bitsOf sz) :=
  (orLanes (widthOf sz) bin (widthOf sz)).setWidth (bitsOf sz)

/-- `ext(KIND, raw)`: sign extension for SINT, zero extension for UINT and FP (R69, R103). -/
def ext {n : Nat} (k : Kind) (raw : BitVec n) : Word :=
  match k with
  | .sint => raw.signExtend 64
  | .uint => raw.setWidth 64
  | .fp => raw.setWidth 64

/-! ## Presence and length -/

/-- `unsigned(in_len)`: the number a LEN_BITS-bit port carries (R23, log 8). -/
def portLen (lenBits : Nat) (len : Nat) : Nat := (BitVec.ofNat lenBits len).toNat

/-- The number a host presents on `in_len` for a sequence of L bytes: min(L, 2^LEN_BITS - 1) (R23). -/
def presentLen (lenBits : Nat) (len : Nat) : Nat := min len (2 ^ lenBits - 1)

/-- The lanes a host drives for a sequence: byte k on lane k for k below min(L, 8), the other lanes 0 (R22, R72). -/
def presentBytes (bs : List Byte) : Word :=
  (bs.getD 0 0 ++ bs.getD 1 0 ++ bs.getD 2 0 ++ bs.getD 3 0 ++
    bs.getD 4 0 ++ bs.getD 5 0 ++ bs.getD 6 0 ++ bs.getD 7 0 : BitVec 64)

end Sys2Proof.Machine
end

