-- ==== Sys2Proof/Machine/Ops.lean ====
section
/-! DEFINITION. The shared operations: the three datapaths (40_encode.md R80, 41_decode_seq.md R100, 42_decode_fixed.md
R120), raising an error (60_exceptions.md R143), and the clock edge (10_state.md R27, R28; 70_reset_and_hazards.md R171). -/

namespace Sys2Proof.Machine

/-! ## Responses -/

/-- Raising an error: the one response form of every error. No value is carried (R143, R149); `err_minlen` is by cause
(R144). BECM enters no trap handler (R153) and has no return from one (R154). -/
def raiseError (c : Cause) (w : Nat) : Response where
  bout      := 0
  outLen    := 0
  vout      := 0
  err       := c.err
  errCause  := c.code
  errMinlen := c.minlen w

/-- `raise InvalidArgument(cause, W)` (R11, R141). -/
def raiseInvalidArgument (c : Cause) (w : Nat) : Response := raiseError c w

/-- `raise IllegalCommand()` (R11, R142). -/
def raiseIllegalCommand : Response := raiseError .illegalCmd 0

/-- A success that writes `bout` and `out_len`; every output not written is 0 (R80, R161). -/
def encoded (bout : Word) (w : Nat) : Response where
  bout      := bout
  outLen    := BitVec.ofNat 4 w
  vout      := 0
  err       := Cause.none.err
  errCause  := Cause.none.code
  errMinlen := Cause.none.minlen w

/-- A success that writes `vout`; `bout` and `out_len` are 0 (R100, R120, R161). -/
def decoded (vout : Word) (w : Nat) : Response where
  bout      := 0
  outLen    := 0
  vout      := vout
  err       := Cause.none.err
  errCause  := Cause.none.code
  errMinlen := Cause.none.minlen w

/-! ## Datapaths -/

/-- `enc(SZ, val)`: the n-bit value left-justified in the lane bus (R80). -/
def enc (sz : BitVec 2) (val : Word) : Response :=
  encoded ((encodeOperand sz val).setWidth 64 <<< (64 - bitsOf sz)) (widthOf sz)

/-- `decs(SZ, KIND, bin, present, len)`: presence, then length, then assembly (R100, R101, R150). -/
def decs (sz : BitVec 2) (k : Kind) (bin : Word) (present : Bool) (len : Nat) : Response :=
  if present = false then raiseInvalidArgument .absent (widthOf sz)
  else if len < widthOf sz then raiseInvalidArgument .tooShort (widthOf sz)
  else decoded (ext k (assemble sz bin)) (widthOf sz)

/-- `decf(SZ, KIND, bin)`: assembly with no check (R120). -/
def decf (sz : BitVec 2) (k : Kind) (bin : Word) : Response :=
  decoded (ext k (assemble sz bin)) (widthOf sz)

/-! ## The inputs of the period -/

/-- `unsigned(in_len)` of this period's request (R23, R101). -/
def State.reqLen (s : State) : Nat := portLen s.params.lenBits s.inp.inLen

/-- `decs` on this period's ports. -/
def State.decsOf (s : State) (sz : BitVec 2) (k : Kind) : Response :=
  decs sz k s.inp.bin s.inp.inPresent s.reqLen

/-- What the host puts on the ports to present command word `c`: a request, no reset (R21, R170). -/
def Inputs.withCommand (i : Inputs) (c : Cmd) : Inputs :=
  { i with rst := false, reqValid := true, cmd := c }

/-! ## The outputs of the period -/

/-- A response with every port unspecified: the n-th draw of R29. -/
def freeResponse (n : Nat) : Response where
  bout      := Config.freeBout n
  outLen    := Config.freeOutLen n
  vout      := Config.freeVout n
  err       := Config.freeErr n
  errCause  := Config.freeErrCause n
  errMinlen := Config.freeErrMinlen n

/-- Whether the block has a clock: LATENCY > 0 (R27, R28). -/
def State.clocked (s : State) : Bool := decide (0 < s.params.latency)

/-- S[L], the last stage: `none` when its valid bit is 0 (R28). -/
def State.lastStage (s : State) : Option Response := s.pipe.getLast?.join

/-- The outputs during this period with LATENCY > 0: `rsp_valid = S[L].v` and `S[L].p` (R28); with no valid response
the other outputs are unspecified (R29); before the first reset edge all of them are (R174). -/
def State.clockedOutputs (s : State) : Outputs :=
  if s.resetDone then
    match s.lastStage with
    | some r => ⟨true, r⟩
    | none => ⟨false, freeResponse s.draws⟩
  else ⟨Config.freeRspValid s.draws, freeResponse s.draws⟩

/-- The outputs during this period, where `now` is the response to its inputs: with LATENCY = 0 that response,
whatever `req_valid` is, and `rsp_valid = req_valid` (R27, R29). -/
def State.outputs (s : State) (now : Response) : Outputs :=
  if s.clocked then s.clockedOutputs else ⟨s.inp.reqValid, now⟩

/-- The draw counter after this period: one more if an unspecified value was shown. -/
def State.drawsAfter (s : State) : Nat :=
  if s.clocked && !(s.resetDone && s.lastStage.isSome) then s.draws + 1 else s.draws

/-! ## The end of the period -/

/-- S[1] after the edge: valid with the response when `req_valid` = 1, else invalid (R28). -/
def State.newStage (s : State) (now : Response) : Option Response :=
  if s.inp.reqValid then some now else none

/-- S[1..L] after an edge with `rst` = 0: the new stage in front, the last one gone; nothing with LATENCY = 0 (R28). -/
def State.shifted (s : State) (now : Response) : List (Option Response) :=
  (s.newStage now :: s.pipe).take s.params.latency

/-- Closing a period: record its outputs, take the new pipeline, and let the host present the next inputs. -/
def State.closePeriod (s : State) (out : Outputs) (pipe : List (Option Response)) (resetDone : Bool) : State where
  params    := s.params
  inp       := s.host.headD Inputs.idle
  host      := s.host.tail
  pipe      := pipe
  resetDone := resetDone
  out       := out
  draws     := s.drawsAfter

/-- What every command does with its response: it goes to the outputs (LATENCY = 0, R27) or into the pipeline
(LATENCY > 0, R28). -/
def State.respond (s : State) (r : Response) : State :=
  s.closePeriod (s.outputs r) (s.shifted r) s.resetDone

/-- Whether the edge that ends this period is a reset edge: there is a clock and `rst` = 1 (R170). -/
def State.resetting (s : State) : Bool := s.clocked && s.inp.rst

/-- A reset edge: every valid bit is cleared, and the period's request is discarded (R171, R172). -/
def State.resetEdge (s : State) : State :=
  s.closePeriod s.clockedOutputs (List.replicate s.params.latency none) true

/-! ## Power -/

/-- A power transition with LATENCY > 0 leaves every stage unspecified and calls for a reset edge (R164, R174); with
LATENCY = 0 there is nothing to lose. An event of the environment, never taken by a step (log 18). -/
def State.powerCycle (s : State) : State :=
  { s with
    pipe := (List.range s.params.latency).map fun j =>
      if Config.freeStageValid (s.draws + j) then some (freeResponse (s.draws + j)) else none
    resetDone := false
    draws := s.draws + s.params.latency }

/-- The machine with parameters `p` at power-up, before any reset edge (R174). -/
def State.powerUp (p : Params) : State := (State.resetWith p).powerCycle

end Sys2Proof.Machine
end

