-- ==== Sys2Proof/Machine/DecodeFixed.lean ====
section
/-! DEFINITION. The fixed-arity decode family (42_decode_fixed.md R123 to R129), over the datapath `decf` (R120). -/

namespace Sys2Proof.Machine

/-- DECF.B, fixed-arity decode of a byte: `decf(0, SINT, bin)` with FIX_ALL = 1, else the word is reserved (R123, R122). -/
def execDecfB (s : State) : Host.Outcome State Fault Refusal :=
  .next (s.respond (if s.params.fixAll then decf 0#2 .sint s.inp.bin else raiseIllegalCommand))

/-- DECF.S, fixed-arity decode of a short: `decf(1, SINT, bin)` (R124). -/
def execDecfS (s : State) : Host.Outcome State Fault Refusal :=
  .next (s.respond (decf 1#2 .sint s.inp.bin))

/-- DECF.C, fixed-arity decode of a char: `decf(1, UINT, bin)` (R125). -/
def execDecfC (s : State) : Host.Outcome State Fault Refusal :=
  .next (s.respond (decf 1#2 .uint s.inp.bin))

/-- DECF.I, fixed-arity decode of a int: `decf(2, SINT, bin)` (R126). -/
def execDecfI (s : State) : Host.Outcome State Fault Refusal :=
  .next (s.respond (decf 2#2 .sint s.inp.bin))

/-- DECF.L, fixed-arity decode of a long: `decf(3, SINT, bin)` (R127). -/
def execDecfL (s : State) : Host.Outcome State Fault Refusal :=
  .next (s.respond (decf 3#2 .sint s.inp.bin))

/-- DECF.F, fixed-arity decode of a float: `decf(2, FP, bin)` with FIX_ALL = 1, else the word is reserved (R128, R122). -/
def execDecfF (s : State) : Host.Outcome State Fault Refusal :=
  .next (s.respond (if s.params.fixAll then decf 2#2 .fp s.inp.bin else raiseIllegalCommand))

/-- DECF.D, fixed-arity decode of a double: `decf(3, FP, bin)` (R129). -/
def execDecfD (s : State) : Host.Outcome State Fault Refusal :=
  .next (s.respond (decf 3#2 .fp s.inp.bin))

end Sys2Proof.Machine
end

