-- ==== Sys2Proof/Machine/DecodeSeq.lean ====
section
/-! DEFINITION. The checked decode family (41_decode_seq.md R106 to R112), over the datapath `decs` (R100). -/

namespace Sys2Proof.Machine

/-- DECS.B, checked decode of a byte: `decs(0, SINT, ...)` (R106). -/
def execDecsB (s : State) : Host.Outcome State Fault Refusal :=
  .next (s.respond (s.decsOf 0#2 .sint))

/-- DECS.S, checked decode of a short: `decs(1, SINT, ...)` (R107). -/
def execDecsS (s : State) : Host.Outcome State Fault Refusal :=
  .next (s.respond (s.decsOf 1#2 .sint))

/-- DECS.C, checked decode of a char: `decs(1, UINT, ...)` (R108). -/
def execDecsC (s : State) : Host.Outcome State Fault Refusal :=
  .next (s.respond (s.decsOf 1#2 .uint))

/-- DECS.I, checked decode of a int: `decs(2, SINT, ...)` (R109). -/
def execDecsI (s : State) : Host.Outcome State Fault Refusal :=
  .next (s.respond (s.decsOf 2#2 .sint))

/-- DECS.L, checked decode of a long: `decs(3, SINT, ...)` (R110). -/
def execDecsL (s : State) : Host.Outcome State Fault Refusal :=
  .next (s.respond (s.decsOf 3#2 .sint))

/-- DECS.F, checked decode of a float: `decs(2, FP, ...)` (R111). -/
def execDecsF (s : State) : Host.Outcome State Fault Refusal :=
  .next (s.respond (s.decsOf 2#2 .fp))

/-- DECS.D, checked decode of a double: `decs(3, FP, ...)` (R112). -/
def execDecsD (s : State) : Host.Outcome State Fault Refusal :=
  .next (s.respond (s.decsOf 3#2 .fp))

end Sys2Proof.Machine
end

