-- ==== Sys2Proof/Machine/Encode.lean ====
section
/-! DEFINITION. The encode family (40_encode.md R81 to R87), over the datapath `enc` (R80). -/

namespace Sys2Proof.Machine

/-- ENC.B, encode byte: `enc(0, val_in)` (R81). -/
def execEncB (s : State) : Host.Outcome State Fault Refusal :=
  .next (s.respond (enc 0#2 s.inp.valIn))

/-- ENC.S, encode short: `enc(1, val_in)` (R82). -/
def execEncS (s : State) : Host.Outcome State Fault Refusal :=
  .next (s.respond (enc 1#2 s.inp.valIn))

/-- ENC.C, encode char: `enc(1, val_in)` (R83). -/
def execEncC (s : State) : Host.Outcome State Fault Refusal :=
  .next (s.respond (enc 1#2 s.inp.valIn))

/-- ENC.I, encode int: `enc(2, val_in)` (R84). -/
def execEncI (s : State) : Host.Outcome State Fault Refusal :=
  .next (s.respond (enc 2#2 s.inp.valIn))

/-- ENC.L, encode long: `enc(3, val_in)` (R85). -/
def execEncL (s : State) : Host.Outcome State Fault Refusal :=
  .next (s.respond (enc 3#2 s.inp.valIn))

/-- ENC.F, encode float: `enc(2, val_in)` (R86). -/
def execEncF (s : State) : Host.Outcome State Fault Refusal :=
  .next (s.respond (enc 2#2 s.inp.valIn))

/-- ENC.D, encode double: `enc(3, val_in)` (R87). -/
def execEncD (s : State) : Host.Outcome State Fault Refusal :=
  .next (s.respond (enc 3#2 s.inp.valIn))

end Sys2Proof.Machine
end

