-- ==== Sys2Proof/Machine/Dispatch.lean ====
section
/-! DEFINITION. One arm per command, each a direct call of its meaning. -/

namespace Sys2Proof.Machine

def exec (i : Instr) (s : State) : Host.Outcome State Fault Refusal :=
  match i with
  | .encB => Sys2Proof.Machine.execEncB s
  | .encS => Sys2Proof.Machine.execEncS s
  | .encC => Sys2Proof.Machine.execEncC s
  | .encI => Sys2Proof.Machine.execEncI s
  | .encL => Sys2Proof.Machine.execEncL s
  | .encF => Sys2Proof.Machine.execEncF s
  | .encD => Sys2Proof.Machine.execEncD s
  | .decsB => Sys2Proof.Machine.execDecsB s
  | .decsS => Sys2Proof.Machine.execDecsS s
  | .decsC => Sys2Proof.Machine.execDecsC s
  | .decsI => Sys2Proof.Machine.execDecsI s
  | .decsL => Sys2Proof.Machine.execDecsL s
  | .decsF => Sys2Proof.Machine.execDecsF s
  | .decsD => Sys2Proof.Machine.execDecsD s
  | .decfB => Sys2Proof.Machine.execDecfB s
  | .decfS => Sys2Proof.Machine.execDecfS s
  | .decfC => Sys2Proof.Machine.execDecfC s
  | .decfI => Sys2Proof.Machine.execDecfI s
  | .decfL => Sys2Proof.Machine.execDecfL s
  | .decfF => Sys2Proof.Machine.execDecfF s
  | .decfD => Sys2Proof.Machine.execDecfD s

end Sys2Proof.Machine
end

