-- ==== Sys2Proof/Machine/Reserved.lean ====
section
/-! DEFINITION. A period whose command word is reserved, and a reset period. -/

namespace Sys2Proof.Machine

/-- A reserved word: the request raises ILLEGAL_CMD and has no other effect (30_encoding.md R67, 60_exceptions.md R142). -/
def execReserved (s : State) : Host.Outcome State Fault Refusal :=
  .next (s.respond raiseIllegalCommand)

/-- A period that ends with a reset edge: its request is discarded (70_reset_and_hazards.md R171, R172). -/
def execResetEdge (s : State) : Host.Outcome State Fault Refusal :=
  .next s.resetEdge

/-- The command of this period's word (20_memory.md R53: nothing is fetched, `cmd` is what the request executes). -/
def State.command (s : State) : Except DecodeReject Instr := decode s.params.fixAll s.inp.cmd

end Sys2Proof.Machine
end

