-- ==== Sys2Proof/Machine/Step.lean ====
section
/-! DEFINITION. One period: a reset edge, or the command on the `cmd` port, or a reserved word (30_encoding.md R70). -/

namespace Sys2Proof.Machine

/-- One clock period (LATENCY > 0) or one presentation of inputs (LATENCY = 0); DEDUCED, log 2. -/
def step (s : State) : Host.Outcome State Fault Refusal :=
  if s.resetting then execResetEdge s
  else match s.command with
    | .ok i => exec i s
    | .error _ => execReserved s

/-- `s` with the command word `w` on the `cmd` port, as a request of this period, so that the next `step` runs it
(log 11). Only the low `nbits` bits of `w` are the word. -/
def State.withFetchWord (s : State) (nbits w : Nat) : State :=
  { s with inp := s.inp.withCommand (BitVec.ofNat 8 (w % 2 ^ nbits)) }

/-- `k` periods in a row. -/
def run : Nat → State → Host.Outcome State Fault Refusal
  | 0, s => .next s
  | k + 1, s =>
    match step s with
    | .next t => run k t
    | .fault r => .fault r
    | .refused r => .refused r

end Sys2Proof.Machine
end

