-- ==== Sys2Proof/Machine/Codec.lean ====
section
/-! DEFINITION. `codec(IN)` as 30_encoding.md R70 writes it, straight from the word's fields: the reference that the
instruction-by-instruction machine is compared with. `step` does not use it. -/

namespace Sys2Proof.Machine

/-- R70: legality, then SZ, KIND and OP drive one of the three datapaths. A legal word's OP and KIND are never `11`,
so the last branch and the default kind are not reached (R66). -/
def codec (p : Params) (inp : Inputs) : Response :=
  if legal p.fixAll inp.cmd = false then raiseIllegalCommand
  else
    let sz := fieldSz inp.cmd
    let k := (kindOf (fieldKind inp.cmd)).getD .fp
    match opOf (fieldOp inp.cmd) with
    | some .enc => enc sz inp.valIn
    | some .decs => decs sz k inp.bin inp.inPresent (portLen p.lenBits inp.inLen)
    | some .decf => decf sz k inp.bin
    | none => raiseIllegalCommand

end Sys2Proof.Machine
end

