-- ==== Sys2Proof/Machine/Assembler.lean ====
section
/-! DEFINITION. The command syntax and the ports each form drives (30_encoding.md R72), and the host references
`$bout` and `$vout` (R73). Host-side: no step uses it. What R72 leaves open of spacing and of how a byte is written is
DESIGN CHOICE, log 15; which values and references do not assemble is DEDUCED, log 19; what a reference to an error response
drives is DESIGN CHOICE, log 20. -/

namespace Sys2Proof.Machine

/-! ## Forms -/

/-- A value operand of `enc.T` (R72). -/
inductive Operand where
  /-- `0x...`, the n-bit pattern. -/
  | hex (x : Nat)
  /-- A decimal number. -/
  | dec (z : Int)
  /-- A quoted character, by its 16-bit code unit. -/
  | chr (u : BitVec 16)
deriving DecidableEq, Repr

/-- One line of R72, and the operands `$bout` and `$vout` of R73. -/
inductive Line where
  | enc (t : PrimType) (v : Operand)
  | encVout (t : PrimType)
  | decs (t : PrimType) (bs : List Byte)
  | decsNull (t : PrimType)
  | decsBout (t : PrimType)
  | decf (t : PrimType) (bs : List Byte)
  | decfBout (t : PrimType)
  | cmd (c : Cmd)
deriving DecidableEq, Repr

/-- `zext_64` of the n-bit pattern a value operand stands for, if the type allows that spelling (R72): hexadecimal for
every type; decimal in the signed range for byte, short, int and long and in 0..65535 for char; a quoted character for
char only. Anything else does not assemble (DEDUCED, log 19). -/
def Operand.pattern (t : PrimType) : Operand → Option Word
  | .hex x => if x < 2 ^ bits t then some (BitVec.ofNat 64 x) else none
  | .dec z =>
    match t.kind with
    | .sint =>
      if -(2 ^ (bits t - 1) : Int) ≤ z ∧ z < 2 ^ (bits t - 1) then
        some ((BitVec.ofInt (bits t) z).setWidth 64)
      else none
    | .uint => if 0 ≤ z ∧ z < 2 ^ bits t then some ((BitVec.ofInt (bits t) z).setWidth 64) else none
    | .fp => none
  | .chr u => if t = .char then some (u.setWidth 64) else none

/-- A request of command word `c` with every other input 0 (R72, `.cmd`). -/
def Inputs.request (c : Cmd) : Inputs := Inputs.idle.withCommand c

/-- `enc.T` with `val_in` = v (R72). -/
def Inputs.encRequest (t : PrimType) (v : Word) : Inputs :=
  { Inputs.request (encode (.ofOpType .enc t)) with valIn := v }

/-- `decs.T` of lanes `bin` with the given presence and length (R72). -/
def Inputs.decsRequest (t : PrimType) (bin : Word) (present : Bool) (len : Nat) : Inputs :=
  { Inputs.request (encode (.ofOpType .decs t)) with bin := bin, inPresent := present, inLen := len }

/-- `decf.T` of lanes `bin`; `in_present` and `in_len` are 0 by convention (R72). -/
def Inputs.decfRequest (t : PrimType) (bin : Word) : Inputs :=
  { Inputs.request (encode (.ofOpType .decf t)) with bin := bin }

/-- The ports a line drives, given LEN_BITS and the previous response, if there is one; `none` where the line does not
assemble (R72) or refers to a response that is not there (R73; DEDUCED, log 19).
`$vout` and `$bout` copy the previous response's ports without looking at its `err`: after an error response (R143) they
drive its zeros, as bits and not as a decoded value (DESIGN CHOICE, log 20). -/
def Line.ports (lenBits : Nat) (prev : Option Response) : Line → Option Inputs
  | .enc t v => (v.pattern t).map (Inputs.encRequest t)
  | .encVout t => prev.map fun r => Inputs.encRequest t r.vout
  | .decs t bs => some (Inputs.decsRequest t (presentBytes bs) true (presentLen lenBits bs.length))
  | .decsNull t => some (Inputs.decsRequest t 0 false 0)
  | .decsBout t => prev.map fun r => Inputs.decsRequest t r.bout true r.outLen.toNat
  | .decf t bs => if bs.length = width t then some (Inputs.decfRequest t (presentBytes bs)) else none
  | .decfBout t => prev.map fun r => Inputs.decfRequest t r.bout
  | .cmd c => some (Inputs.request c)

/-! ## Text -/

/-- Spaces and tabs, which may stand between parts (log 15). -/
def skipBlank (cs : List Char) : List Char := cs.dropWhile fun c => c = ' ' ∨ c = '\t'

/-- What follows the word `w` (given in lower case) at the front of the text, in any case (R72). -/
def takeWord : List Char → List Char → Option (List Char)
  | [], cs => some cs
  | w :: ws, c :: cs => if c.toLower = w then takeWord ws cs else none
  | _ :: _, [] => none

/-- The value of a hexadecimal digit. -/
def hexDigit (c : Char) : Option Nat :=
  if '0' ≤ c ∧ c ≤ '9' then some (c.toNat - '0'.toNat)
  else if 'a' ≤ c.toLower ∧ c.toLower ≤ 'f' then some (c.toLower.toNat - 'a'.toNat + 10)
  else none

/-- The value of a decimal digit. -/
def decDigit (c : Char) : Option Nat :=
  if '0' ≤ c ∧ c ≤ '9' then some (c.toNat - '0'.toNat) else none

/-- The digits at the front of the text, after `acc`, and what follows them. -/
def takeMoreDigits (base : Nat) (digit : Char → Option Nat) (acc : Nat) : List Char → Nat × List Char
  | [] => (acc, [])
  | c :: cs =>
    match digit c with
    | some d => takeMoreDigits base digit (acc * base + d) cs
    | none => (acc, c :: cs)

/-- A number of at least one digit. -/
def takeDigits (base : Nat) (digit : Char → Option Nat) : List Char → Option (Nat × List Char)
  | [] => none
  | c :: cs => (digit c).map fun d => takeMoreDigits base digit d cs

/-- `0x` and hexadecimal digits. -/
def takeHex (cs : List Char) : Option (Nat × List Char) :=
  (takeWord ['0', 'x'] cs).bind (takeDigits 16 hexDigit)

/-- An operand of `enc.T`: hexadecimal, a quoted character, or decimal with an optional minus sign (R72). -/
def takeOperand (cs : List Char) : Option (Operand × List Char) :=
  match takeHex cs with
  | some (x, rest) => some (.hex x, rest)
  | none =>
    match cs with
    | '\'' :: c :: '\'' :: rest => if c.toNat < 65536 then some (.chr (BitVec.ofNat 16 c.toNat), rest) else none
    | '-' :: rest => (takeDigits 10 decDigit rest).map fun (x, r) => (.dec (-(x : Int)), r)
    | _ => (takeDigits 10 decDigit cs).map fun (x, r) => (.dec x, r)

/-- A byte of a list: hexadecimal or unsigned decimal, below 256 (log 15). -/
def takeByte (cs : List Char) : Option (Byte × List Char) :=
  match (takeHex cs).or (takeDigits 10 decDigit cs) with
  | some (x, rest) => if x < 256 then some (BitVec.ofNat 8 x, rest) else none
  | none => none

/-- Bytes separated by commas, at least one; the first argument bounds how many are read. -/
def takeBytes : Nat → List Char → Option (List Byte × List Char)
  | 0, _ => none
  | fuel + 1, cs =>
    match takeByte (skipBlank cs) with
    | none => none
    | some (b, rest) =>
      match skipBlank rest with
      | ',' :: more => (takeBytes fuel more).map fun (bs, r) => (b :: bs, r)
      | more => some ([b], more)

/-- A type letter followed by what comes after it (R72). -/
def takeType : List Char → Option (PrimType × List Char)
  | [] => none
  | c :: cs =>
    match c.toLower with
    | 'b' => some (.byte, cs)
    | 's' => some (.short, cs)
    | 'c' => some (.char, cs)
    | 'i' => some (.int, cs)
    | 'l' => some (.long, cs)
    | 'f' => some (.float, cs)
    | 'd' => some (.double, cs)
    | _ => none

/-- A parsed part, if nothing but blanks follows it. -/
def whole {α : Type} : Option (α × List Char) → Option α
  | some (a, rest) => if (skipBlank rest).isEmpty then some a else none
  | none => none

/-- What follows the blank, at least one, that parts a mnemonic from its operand. -/
def afterBlank : List Char → Option (List Char)
  | [] => none
  | c :: cs => if c = ' ' ∨ c = '\t' then some (skipBlank cs) else none

/-- The type and the operand text of a line `word.T operand`. -/
def takeHead (word : List Char) (cs : List Char) : Option (PrimType × List Char) :=
  match (takeWord word cs).bind takeType with
  | some (t, rest) => (afterBlank rest).map fun r => (t, r)
  | none => none

/-- Whether the rest of the line is exactly the word `w`. -/
def isWord (w : List Char) (cs : List Char) : Bool :=
  match takeWord w cs with
  | some rest => (skipBlank rest).isEmpty
  | none => false

/-- The operand of `enc.T`. -/
def parseEnc (t : PrimType) (cs : List Char) : Option Line :=
  if isWord "$vout".toList cs then some (.encVout t) else (whole (takeOperand cs)).map (.enc t)

/-- The operand of `decs.T`. -/
def parseDecs (t : PrimType) (cs : List Char) : Option Line :=
  if isWord "$bout".toList cs then some (.decsBout t)
  else if isWord "null".toList cs then some (.decsNull t)
  else match cs with
    | '[' :: rest =>
      match skipBlank rest with
      | ']' :: r => (whole (some ([], r))).map (.decs t)
      | _ =>
        match takeBytes rest.length rest with
        | some (bs, ']' :: r) => (whole (some (bs, r))).map (.decs t)
        | _ => none
    | _ => none

/-- The operand of `decf.T`; an operand count other than W is a syntax error (R72). -/
def parseDecf (t : PrimType) (cs : List Char) : Option Line :=
  if isWord "$bout".toList cs then some (.decfBout t)
  else match whole (takeBytes cs.length cs) with
    | some bs => if bs.length = width t then some (.decf t bs) else none
    | none => none

/-- The operand of `.cmd`: a word `0xNN`. -/
def parseCmd (cs : List Char) : Option Line :=
  match whole (takeHex cs) with
  | some x => if x < 256 then some (.cmd (BitVec.ofNat 8 x)) else none
  | none => none

/-- One line of the syntax of R72 and R73, in any case. -/
def parseLine (text : List Char) : Option Line :=
  let cs := skipBlank text
  match takeHead "enc.".toList cs, takeHead "decs.".toList cs, takeHead "decf.".toList cs,
      (takeWord ".cmd".toList cs).bind afterBlank with
  | some (t, rest), _, _, _ => parseEnc t rest
  | none, some (t, rest), _, _ => parseDecs t rest
  | none, none, some (t, rest), _ => parseDecf t rest
  | none, none, none, some rest => parseCmd rest
  | none, none, none, none => none

end Sys2Proof.Machine
end

