-- ==== Sys2Proof/Machine/HostRun.lean ====
section
/-! DEFINITION. A host that presents a straight-line list of requests and waits for each response before the next
(30_encoding.md R73, 70_reset_and_hazards.md R177). Host-side: no step uses it. -/

namespace Sys2Proof.Machine

/-- The host presents `inp` in this period and nothing after it. -/
def State.issue (s : State) (inp : Inputs) : State := { s with inp := inp, host := [] }

/-- The host presents the list of inputs, one a period, from this period on. -/
def State.present (s : State) (is : List Inputs) : State :=
  { s with inp := is.headD Inputs.idle, host := is.tail }

/-- One request and the LATENCY periods the host waits for its response (R176, R177, log 16): the response, and the
machine in the next period. -/
def State.request (s : State) (inp : Inputs) : Option (Response × State) :=
  match run (s.params.latency + 1) (s.issue inp) with
  | .next t => if t.out.rspValid then some (t.out.rsp, t) else none
  | .fault _ => none
  | .refused _ => none

/-- A program of R73: its lines in order, `$bout` and `$vout` naming the response just before. -/
def runLines : List Line → Option Response → State → Option (List Response × State)
  | [], _, s => some ([], s)
  | l :: ls, prev, s =>
    match l.ports s.params.lenBits prev with
    | none => none
    | some inp =>
      match s.request inp with
      | none => none
      | some (r, t) => (runLines ls (some r) t).map fun (rs, u) => (r :: rs, u)

end Sys2Proof.Machine
end

