-- ==== Sys2Proof/Safety.lean ====
section
/-! DEFINITION. What a well-formed state and a coherent response are, in the terms the statements use. -/

namespace Sys2Proof.Machine

/-- The length port carries a LEN_BITS-bit number (10_state.md R23). -/
abbrev Inputs.WF (p : Params) (i : Inputs) : Prop := i.inLen < 2 ^ p.lenBits

/-- The shape of the state: LEN_BITS in range (R7), LATENCY stages (R28), every length port value in its width (R23).
It holds at reset and at power-up, and says nothing of what the stages hold. -/
abbrev State.WF (s : State) : Prop :=
  s.params.WF ∧ s.pipe.length = s.params.latency ∧ s.inp.WF s.params ∧ ∀ i ∈ s.host, i.WF s.params

/-- The lengths a response may name: W for the four widths (R61). -/
abbrev isWidth (v : BitVec 4) : Prop := v = 1 ∨ v = 2 ∨ v = 4 ∨ v = 8

/-- What every response `codec` gives looks like, over its ports alone: `err` is 1 exactly when `err_cause` is not 0
(60_exceptions.md R146); an error carries no result (R143, R149); `err_minlen` is 0 for NONE and ILLEGAL_CMD and a width
for ABSENT and TOO_SHORT (R144); `out_len` is 0 or a width, the lanes from it on are 0 (40_encode.md R80, R89); at most
one of `bout` and `vout` is in use (R161). -/
abbrev Response.Coherent (r : Response) : Prop :=
  (r.err = true ↔ r.errCause ≠ 0) ∧
  (r.err = true → r.bout = 0 ∧ r.outLen = 0 ∧ r.vout = 0) ∧
  (r.errCause = 0 ∨ r.errCause = 3 → r.errMinlen = 0) ∧
  (r.errCause = 1 ∨ r.errCause = 2 → isWidth r.errMinlen) ∧
  (r.outLen = 0 ∨ isWidth r.outLen) ∧
  r.bout <<< (8 * r.outLen.toNat) = 0 ∧
  (r.outLen ≠ 0 → r.vout = 0)

/-- Once a reset edge has been applied, every valid stage holds a coherent response. -/
abbrev State.PipeCoherent (s : State) : Prop :=
  s.resetDone = true → ∀ q ∈ s.pipe, ∀ r ∈ q, r.Coherent

/-- The invariant of a machine in use: well-formed, and its pipeline coherent. -/
abbrev State.Sound (s : State) : Prop := s.WF ∧ s.PipeCoherent

/-- The inputs of the period `k` periods from now: this period's, then the host's list, then nothing requested. -/
def State.inputsAt (s : State) (k : Nat) : Inputs := (s.inp :: s.host).getD k Inputs.idle

end Sys2Proof.Machine
end

