-- ==== Sys2Proof/Certificates/Slice0/Obligations.lean ====
section
/-! DEFINITION. The statements for the provers: what the numbered rules say each command, the pipeline and reset do.
"Responds with r" is `exec i s = .next (s.respond r)`; what responding does to the outputs and the pipeline is stated of
`step` in the pipeline statements. -/

namespace Sys2Proof.Statements
open Sys2Proof.Machine

/-- A row of the opcode map R65: the word and its command, and the OP, KIND, SZ and W columns. -/
structure OpcodeRow where
  word  : Cmd
  instr : Instr
  op    : BitVec 2
  kind  : BitVec 2
  sz    : BitVec 2
  w     : Nat

/-- The ENC rows of R65. -/
def encRows : List OpcodeRow :=
  [⟨0b00000000#8, .encB, 0b00#2, 0b00#2, 0b00#2, 1⟩,
   ⟨0b00000001#8, .encS, 0b00#2, 0b00#2, 0b01#2, 2⟩,
   ⟨0b00000101#8, .encC, 0b00#2, 0b01#2, 0b01#2, 2⟩,
   ⟨0b00000010#8, .encI, 0b00#2, 0b00#2, 0b10#2, 4⟩,
   ⟨0b00000011#8, .encL, 0b00#2, 0b00#2, 0b11#2, 8⟩,
   ⟨0b00001010#8, .encF, 0b00#2, 0b10#2, 0b10#2, 4⟩,
   ⟨0b00001011#8, .encD, 0b00#2, 0b10#2, 0b11#2, 8⟩]

/-- The DECS rows of R65. -/
def decsRows : List OpcodeRow :=
  [⟨0b00010000#8, .decsB, 0b01#2, 0b00#2, 0b00#2, 1⟩,
   ⟨0b00010001#8, .decsS, 0b01#2, 0b00#2, 0b01#2, 2⟩,
   ⟨0b00010101#8, .decsC, 0b01#2, 0b01#2, 0b01#2, 2⟩,
   ⟨0b00010010#8, .decsI, 0b01#2, 0b00#2, 0b10#2, 4⟩,
   ⟨0b00010011#8, .decsL, 0b01#2, 0b00#2, 0b11#2, 8⟩,
   ⟨0b00011010#8, .decsF, 0b01#2, 0b10#2, 0b10#2, 4⟩,
   ⟨0b00011011#8, .decsD, 0b01#2, 0b10#2, 0b11#2, 8⟩]

/-- The DECF rows of R65. -/
def decfRows : List OpcodeRow :=
  [⟨0b00100000#8, .decfB, 0b10#2, 0b00#2, 0b00#2, 1⟩,
   ⟨0b00100001#8, .decfS, 0b10#2, 0b00#2, 0b01#2, 2⟩,
   ⟨0b00100101#8, .decfC, 0b10#2, 0b01#2, 0b01#2, 2⟩,
   ⟨0b00100010#8, .decfI, 0b10#2, 0b00#2, 0b10#2, 4⟩,
   ⟨0b00100011#8, .decfL, 0b10#2, 0b00#2, 0b11#2, 8⟩,
   ⟨0b00101010#8, .decfF, 0b10#2, 0b10#2, 0b10#2, 4⟩,
   ⟨0b00101011#8, .decfD, 0b10#2, 0b10#2, 0b11#2, 8⟩]

/-- The opcode map of R65. -/
def opcodeMap : List OpcodeRow := encRows ++ decsRows ++ decfRows

/-- An encode's response to R24's ports: `bout`, `out_len`, and every other output 0. -/
abbrev encodedAs (bout : Word) (w : BitVec 4) : Response := ⟨bout, w, 0, false, 0, 0⟩

/-- A decode's successful response: `vout`, and every other output 0. -/
abbrev decodedAs (vout : Word) : Response := ⟨0, 0, vout, false, 0, 0⟩

/-- The error response of R143 with a cause code and a minimum length. -/
abbrev errorOf (cause : BitVec 2) (minlen : BitVec 4) : Response := ⟨0, 0, 0, true, cause, minlen⟩

/-- `i` is a checked decode needing `w` bytes whose value, when the check passes, is `value bin` (R100): ABSENT (1) when
`in_present` = 0, TOO_SHORT (2) when it is 1 and `in_len` < w, the value otherwise. -/
def ChecksThenDecodes (i : Instr) (w : Nat) (value : Word → Word) : Prop :=
  ∀ s : State,
    (s.inp.inPresent = false → exec i s = .next (s.respond (errorOf 1 (BitVec.ofNat 4 w)))) ∧
    (s.inp.inPresent = true → s.reqLen < w → exec i s = .next (s.respond (errorOf 2 (BitVec.ofNat 4 w)))) ∧
    (s.inp.inPresent = true → w ≤ s.reqLen → exec i s = .next (s.respond (decodedAs (value s.inp.bin))))

/-- `i` is a fixed-arity decode whose value is `value bin`, whatever the presence and length ports hold (R120). -/
def DecodesAlways (i : Instr) (value : Word → Word) : Prop :=
  ∀ s : State, exec i s = .next (s.respond (decodedAs (value s.inp.bin)))

/-- As `DecodesAlways` with FIX_ALL = 1; with FIX_ALL = 0 the ILLEGAL_CMD response (R122). -/
def DecodesWithFixAll (i : Instr) (value : Word → Word) : Prop :=
  ∀ s : State,
    (s.params.fixAll = true → exec i s = .next (s.respond (decodedAs (value s.inp.bin)))) ∧
    (s.params.fixAll = false → exec i s = .next (s.respond (errorOf 3 0)))

/-- The two lanes of a short or char, lane 0 on top (R107). -/
abbrev twoLanes (bin : Word) : BitVec 16 := lane bin 0 ++ lane bin 1

/-- The four lanes of an int or float (R109). -/
abbrev fourLanes (bin : Word) : BitVec 32 := lane bin 0 ++ lane bin 1 ++ lane bin 2 ++ lane bin 3

/-- The number a list of unsigned bytes stands for, most significant first (R41, R102). -/
def bigEndian (bs : List Byte) : Nat := bs.foldl (fun acc b => 256 * acc + b.toNat) 0

/-- `vout` shows the number of the bytes `bs` as type t has it: for a signed type the two's-complement number of its
8W-bit pattern, for char, float and double the unsigned pattern (R103, R10). -/
def ShowsNumber (t : PrimType) (bs : List Byte) (vout : Word) : Prop :=
  match t.kind with
  | .sint => vout.toInt = if bigEndian bs < 2 ^ (bits t - 1) then (bigEndian bs : Int) else bigEndian bs - 2 ^ bits t
  | .uint => vout.toNat = bigEndian bs
  | .fp => vout.toNat = bigEndian bs

/-- The ports present the sequence `bs` (of any length) as R22 and R23 say a host does: lane k holds byte k for
k < min(L, 8), and the other lanes hold anything. -/
def Presents (s : State) (bs : List Byte) : Prop :=
  s.inp.inPresent = true ∧ (∀ k, k < min bs.length 8 → lane s.inp.bin k = bs.getD k 0) ∧
  s.inp.inLen = presentLen s.params.lenBits bs.length

/-- The request of period k is taken and carried through: with LATENCY > 0, no reset edge ends any of the LATENCY periods
from k on, and a reset edge has been applied by then (R172, R175). -/
def CarriedThrough (s : State) (k : Nat) : Prop :=
  0 < s.params.latency →
    (∀ j, k ≤ j → j < k + s.params.latency → (s.inputsAt j).rst = false) ∧
    (s.resetDone = true ∨ ∃ j, j < k ∧ (s.inputsAt j).rst = true)

/-- The ports of a request: no reset, `req_valid` = 1 and the command of a family and a type (R72). -/
abbrev requestOf (o : Op) (t : PrimType) (valIn bin : Word) (present : Bool) (len : Nat) : Inputs :=
  ⟨false, true, encode (.ofOpType o t), valIn, bin, present, len⟩

/-- `enc.T v` drives `val_in` with zext_64 of v's n-bit pattern, for each spelling of v that R72 gives: hexadecimal for
every type; decimal in the signed range, as two's complement, for byte, short, int and long; decimal in 0..65535 and a
quoted character for char. Any other spelling or range does not assemble (log 19, the model's reading). -/
def EncodeLineDrives (lenBits : Nat) (t : PrimType) (prev : Option Response) : Prop :=
  (∀ x : Nat, (Line.enc t (.hex x)).ports lenBits prev =
    if x < 2 ^ bits t then some (requestOf .enc t (BitVec.ofNat 64 x) 0 false 0) else none) ∧
  (t.kind = .sint → ∀ z : Int,
    (-(2 ^ (bits t - 1) : Int) ≤ z → z < 2 ^ (bits t - 1) → ∃ v : BitVec (bits t), v.toInt = z ∧
      (Line.enc t (.dec z)).ports lenBits prev = some (requestOf .enc t (v.setWidth 64) 0 false 0)) ∧
    (z < -(2 ^ (bits t - 1) : Int) ∨ (2 ^ (bits t - 1) : Int) ≤ z → (Line.enc t (.dec z)).ports lenBits prev = none)) ∧
  (t = .char → ∀ z : Int,
    (0 ≤ z → z ≤ 65535 → ∃ v : Word, (v.toNat : Int) = z ∧
      (Line.enc t (.dec z)).ports lenBits prev = some (requestOf .enc t v 0 false 0)) ∧
    (z < 0 ∨ 65535 < z → (Line.enc t (.dec z)).ports lenBits prev = none)) ∧
  (t.kind = .fp → ∀ z : Int, (Line.enc t (.dec z)).ports lenBits prev = none) ∧
  (∀ u : BitVec 16, (Line.enc t (.chr u)).ports lenBits prev =
    if t = .char then some (requestOf .enc t (u.setWidth 64) 0 false 0) else none)

end Sys2Proof.Statements

open Sys2Proof Sys2Proof.Machine Sys2Proof.Statements

/-! ## The command word -/

/-- R65: every word of the opcode map decodes to its command and is its encoding, with the OP, KIND, SZ and W shown, and
no other word decodes to that command (every bit is significant). -/
def Obligations.OpcodeMapDecodesAsListed : Prop :=
  ∀ row ∈ opcodeMap,
    decode true row.word = .ok row.instr ∧ encode row.instr = row.word ∧ fieldRsv row.word = 0 ∧
    fieldOp row.word = row.op ∧ fieldKind row.word = row.kind ∧ fieldSz row.word = row.sz ∧
    width row.instr.ty = row.w ∧ ∀ c : Cmd, decode true c = .ok row.instr → c = row.word

/-- R66: a word is legal exactly when its RSV is 00, its OP is not 11, its KIND and SZ name a type, and it is not DECF.B or
DECF.F with FIX_ALL = 0; with FIX_ALL = 1 exactly the 21 words of the map are legal (235 reserved); with FIX_ALL = 0 those but 0x20 and
0x2A (237 reserved). -/
def Obligations.LegalWordsAreExactlyTheMap : Prop :=
  (∀ (f : Bool) (c : Cmd), legal f c = true ↔
    fieldRsv c = 0 ∧ fieldOp c ≠ 3 ∧
    (fieldKind c = 0 ∨ (fieldKind c = 1 ∧ fieldSz c = 1) ∨ (fieldKind c = 2 ∧ (fieldSz c = 2 ∨ fieldSz c = 3))) ∧
    ¬ (f = false ∧ (c = 0x20#8 ∨ c = 0x2A#8))) ∧
  (∀ c : Cmd, legal true c = true ↔ c ∈ opcodeMap.map OpcodeRow.word) ∧
  (∀ c : Cmd, legal false c = true ↔ c ∈ opcodeMap.map OpcodeRow.word ∧ c ≠ 0x20#8 ∧ c ≠ 0x2A#8) ∧
  ((List.range 256).filter fun n => legal true (BitVec.ofNat 8 n)).length = 21 ∧
  ((List.range 256).filter fun n => legal false (BitVec.ofNat 8 n)).length = 19

/-- The decoder accepts a word exactly when R66's `legal` holds, at both values of FIX_ALL. -/
def Obligations.DecoderAcceptsExactlyLegalWords : Prop :=
  ∀ (f : Bool) (c : Cmd), (∃ i, decode f c = .ok i) ↔ legal f c = true

/-- Decoding the word of a command that exists gives the command back. -/
def Obligations.DecodeOfEncodeIsIdentity : Prop :=
  ∀ (f : Bool) (i : Instr), i.wf f = true → decode f (encode i) = .ok i

/-- A word that decodes is the encoding of the command it gives, and that command exists: no two words share one. -/
def Obligations.EncodeOfDecodeIsIdentity : Prop :=
  ∀ (f : Bool) (c : Cmd) (i : Instr), decode f c = .ok i → encode i = c ∧ i.wf f = true

/-- R6, R61: the widths in bytes of the seven types. -/
def Obligations.TypeWidthsAsTabled : Prop :=
  (∀ sz : BitVec 2, widthOf sz = 1 <<< sz.toNat ∧ bitsOf sz = 8 * widthOf sz) ∧
  width .byte = 1 ∧ width .short = 2 ∧ width .char = 2 ∧ width .int = 4 ∧ width .long = 8 ∧
  width .float = 4 ∧ width .double = 8

/-- A period that does not end with a reset edge runs the command its word decodes to (R53, R70). -/
def Obligations.StepRunsTheDecodedCommand : Prop :=
  ∀ (s : State) (i : Instr), (s.params.latency = 0 ∨ s.inp.rst = false) →
    decode s.params.fixAll s.inp.cmd = .ok i → step s = exec i s

/-- A word placed for the next step (`withFetchWord`, log 11) is what that step runs, from any state and whatever the
ports held (R25, R53); placing it changes `rst`, `req_valid` and `cmd` and nothing else of the state. -/
def Obligations.PlacedWordRunsNext : Prop :=
  ∀ (s : State) (i : Instr), i.wf s.params.fixAll = true →
    step (s.withFetchWord 8 (encode i).toNat) = exec i (s.withFetchWord 8 (encode i).toNat) ∧
    s.withFetchWord 8 (encode i).toNat =
      { s with inp := { s.inp with rst := false, reqValid := true, cmd := encode i } } ∧
    decodeTableWord 8 (encode i).toNat = some i

/-- R67: every reserved word gets the ILLEGAL_CMD response, with no other effect than responding. -/
def Obligations.ReservedWordRaisesIllegalCommand : Prop :=
  ∀ s : State, (s.params.latency = 0 ∨ s.inp.rst = false) → legal s.params.fixAll s.inp.cmd = false →
    step s = .next (s.respond (errorOf 3 0))

/-! ## Encode -/

/-- R81. -/
def Obligations.EncodeByteResponse : Prop :=
  encode .encB = 0x00#8 ∧
  ∀ s : State, exec .encB s = .next (s.respond (encodedAs (s.inp.valIn.extractLsb' 0 8 ++ 0#56) 1))

/-- R82 and R83: short and char put bits 15..8 in lane 0 and bits 7..0 in lane 1. -/
def Obligations.EncodeShortAndCharResponse : Prop :=
  encode .encS = 0x01#8 ∧ encode .encC = 0x05#8 ∧
  ∀ s : State, ∀ i ∈ [Instr.encS, Instr.encC],
    exec i s = .next (s.respond (encodedAs
      (s.inp.valIn.extractLsb' 8 8 ++ s.inp.valIn.extractLsb' 0 8 ++ 0#48) 2))

/-- R84 and R86: int and float put bits 31-8k..24-8k in lane k. -/
def Obligations.EncodeIntAndFloatResponse : Prop :=
  encode .encI = 0x02#8 ∧ encode .encF = 0x0A#8 ∧
  ∀ s : State, ∀ i ∈ [Instr.encI, Instr.encF],
    exec i s = .next (s.respond (encodedAs
      (s.inp.valIn.extractLsb' 24 8 ++ s.inp.valIn.extractLsb' 16 8 ++ s.inp.valIn.extractLsb' 8 8 ++
        s.inp.valIn.extractLsb' 0 8 ++ 0#32) 4))

/-- R85 and R87: long and double put `val_in` on `bout` bit for bit. -/
def Obligations.EncodeLongAndDoubleResponse : Prop :=
  encode .encL = 0x03#8 ∧ encode .encD = 0x0B#8 ∧
  ∀ s : State, ∀ i ∈ [Instr.encL, Instr.encD],
    exec i s = .next (s.respond (encodedAs s.inp.valIn 8))

/-- R80, R89, R42 for all seven encodes: lane k holds byte k of the value for k < W, every lane from W on is 0,
`out_len` = W, and no other output is written. -/
def Obligations.EncodeFollowsByteOrderLaw : Prop :=
  ∀ (i : Instr) (s : State), i.op = .enc → ∃ r, exec i s = .next (s.respond r) ∧
    (∀ k, k < width i.ty → lane r.bout k = s.inp.valIn.extractLsb' (8 * (width i.ty - 1 - k)) 8) ∧
    (∀ k, width i.ty ≤ k → k < 8 → lane r.bout k = 0) ∧
    r.outLen.toNat = width i.ty ∧ r.vout = 0 ∧ r.err = false ∧ r.errCause = 0 ∧ r.errMinlen = 0

/-- R90: types of one width encode alike. -/
def Obligations.EqualWidthTypesEncodeAlike : Prop :=
  ∀ s : State, exec .encS s = exec .encC s ∧ exec .encI s = exec .encF s ∧ exec .encL s = exec .encD s

/-! ## Checked decode -/

/-- R106. -/
def Obligations.CheckedDecodeByte : Prop :=
  encode .decsB = 0x10#8 ∧ ChecksThenDecodes .decsB 1 fun bin => (lane bin 0).signExtend 64

/-- R107 and R108: the same two lanes, sign-extended for short and zero-extended for char. -/
def Obligations.CheckedDecodeShortAndChar : Prop :=
  encode .decsS = 0x11#8 ∧ encode .decsC = 0x15#8 ∧
  (ChecksThenDecodes .decsS 2 fun bin => (twoLanes bin).signExtend 64) ∧
  (ChecksThenDecodes .decsC 2 fun bin => (twoLanes bin).setWidth 64)

/-- R109, R111 and R145: the same four lanes, sign-extended for int and zero-extended for float; the minimum is 4. -/
def Obligations.CheckedDecodeIntAndFloat : Prop :=
  encode .decsI = 0x12#8 ∧ encode .decsF = 0x1A#8 ∧
  (ChecksThenDecodes .decsI 4 fun bin => (fourLanes bin).signExtend 64) ∧
  (ChecksThenDecodes .decsF 4 fun bin => (fourLanes bin).setWidth 64)

/-- R110 and R112: all eight lanes; the minimum is 8. -/
def Obligations.CheckedDecodeLongAndDouble : Prop :=
  encode .decsL = 0x13#8 ∧ encode .decsD = 0x1B#8 ∧
  (ChecksThenDecodes .decsL 8 fun bin => bin) ∧ (ChecksThenDecodes .decsD 8 fun bin => bin)

/-! ## Fixed-arity decode -/

/-- R122, R123 and R128: DECF.B and DECF.F decode with FIX_ALL = 1; with FIX_ALL = 0 they raise ILLEGAL_CMD and their words
are reserved, and they are the only two commands FIX_ALL takes away. -/
def Obligations.FixedDecodeByteAndFloat : Prop :=
  encode .decfB = 0x20#8 ∧ encode .decfF = 0x2A#8 ∧
  legal false 0x20#8 = false ∧ legal false 0x2A#8 = false ∧
  (∀ i : Instr, i.wf true = true ∧ (i.wf false = true ↔ i ≠ .decfB ∧ i ≠ .decfF)) ∧
  (DecodesWithFixAll .decfB fun bin => (lane bin 0).signExtend 64) ∧
  (DecodesWithFixAll .decfF fun bin => (fourLanes bin).setWidth 64)

/-- R124 and R125. -/
def Obligations.FixedDecodeShortAndChar : Prop :=
  encode .decfS = 0x21#8 ∧ encode .decfC = 0x25#8 ∧
  (DecodesAlways .decfS fun bin => (twoLanes bin).signExtend 64) ∧
  (DecodesAlways .decfC fun bin => (twoLanes bin).setWidth 64)

/-- R126, R127 and R129. -/
def Obligations.FixedDecodeIntLongDouble : Prop :=
  encode .decfI = 0x22#8 ∧ encode .decfL = 0x23#8 ∧ encode .decfD = 0x2B#8 ∧
  (DecodesAlways .decfI fun bin => (fourLanes bin).signExtend 64) ∧
  (DecodesAlways .decfL fun bin => bin) ∧ (DecodesAlways .decfD fun bin => bin)

/-! ## What decoding means -/

/-- R69: assembling by slice and assembling lane by lane, each byte widened to 64 bits and shifted, are the same value;
`ext` sign-extends it for SINT and zero-extends it for UINT and FP, keeps its n bits, and is the identity for W = 8. -/
def Obligations.AssembleFormsAgree : Prop :=
  ∀ (sz : BitVec 2) (bin : Word),
    assemble sz bin = assembleByLanes sz bin ∧
    ext .sint (assemble sz bin) = (assemble sz bin).signExtend 64 ∧
    ext .uint (assemble sz bin) = (assemble sz bin).setWidth 64 ∧
    ext .fp (assemble sz bin) = (assemble sz bin).setWidth 64 ∧
    ∀ k : Kind, (ext k (assemble sz bin)).extractLsb' 0 (bitsOf sz) = assemble sz bin ∧
      (widthOf sz = 8 → ext k (assemble sz bin) = bin)

/-- R103, R102: a successful decode of either family shows on `vout` the big-endian number of lanes 0..W-1, signed for
byte, short, int and long, unsigned for char, the zero-extended pattern for float and double; nothing else is driven. -/
def Obligations.DecodeShowsTheLanesNumber : Prop :=
  ∀ (i : Instr) (s : State),
    (i.op = .decs ∧ s.inp.inPresent = true ∧ width i.ty ≤ s.reqLen) ∨ (i.op = .decf ∧ i.wf s.params.fixAll = true) →
    ∃ v, exec i s = .next (s.respond (decodedAs v)) ∧
      ShowsNumber i.ty ((List.range (width i.ty)).map (lane s.inp.bin)) v

/-- R101: an absent sequence fails with ABSENT whatever `in_len` holds; a present one fails with TOO_SHORT when `in_len` is
below W. So for a present sequence of any length, presented as R22 and R23 say, a checked decode fails with TOO_SHORT
exactly when the sequence is shorter than W, and otherwise shows the number of its first W bytes (R46, R104). -/
def Obligations.SequenceDecodeMeetsItsContract : Prop :=
  ∀ (t : PrimType) (s : State),
    (s.inp.inPresent = false →
      exec (.ofOpType .decs t) s = .next (s.respond (errorOf 1 (BitVec.ofNat 4 (width t))))) ∧
    (s.inp.inPresent = true → s.reqLen < width t →
      exec (.ofOpType .decs t) s = .next (s.respond (errorOf 2 (BitVec.ofNat 4 (width t))))) ∧
    ∀ bs : List Byte, s.params.WF → Presents s bs →
      (bs.length < width t →
        exec (.ofOpType .decs t) s = .next (s.respond (errorOf 2 (BitVec.ofNat 4 (width t))))) ∧
      (width t ≤ bs.length → ∃ v,
        exec (.ofOpType .decs t) s = .next (s.respond (decodedAs v)) ∧ ShowsNumber t (bs.take (width t)) v)

/-- R105: decoding what was encoded gives back the value's bits, bit for bit, for every type and value. -/
def Obligations.RoundTripIsBitExact : Prop :=
  ∀ (t : PrimType) (s : State), ∃ r, exec (.ofOpType .enc t) s = .next (s.respond r) ∧
    ∀ u : State, u.inp.bin = r.bout → u.inp.inPresent = true → u.reqLen = width t →
      ∃ v, exec (.ofOpType .decs t) u = .next (u.respond (decodedAs v)) ∧
        v.extractLsb' 0 (bits t) = s.inp.valIn.extractLsb' 0 (bits t)

/-- R43: a decode narrower than the encode sees the wider value's most significant bytes. -/
def Obligations.NarrowerDecodeSeesTopBytes : Prop :=
  ∀ (t w : PrimType) (s : State), width t < width w → ∃ r, exec (.ofOpType .enc w) s = .next (s.respond r) ∧
    ∀ u : State, u.inp.bin = r.bout → u.inp.inPresent = true → width t ≤ u.reqLen →
      ∃ v, exec (.ofOpType .decs t) u = .next (u.respond (decodedAs v)) ∧
        v.extractLsb' 0 (bits t) = s.inp.valIn.extractLsb' (bits w - bits t) (bits t)

/-- R130: where the checked decode succeeds, the fixed-arity decode of the same lanes gives the same response; and it
gives a value whatever the presence and length ports hold. -/
def Obligations.FixedDecodeAgreesWithChecked : Prop :=
  ∀ (t : PrimType) (s : State), (Instr.ofOpType .decf t).wf s.params.fixAll = true →
    (s.inp.inPresent = true → width t ≤ s.reqLen →
      exec (.ofOpType .decf t) s = exec (.ofOpType .decs t) s) ∧
    ∃ v, exec (.ofOpType .decf t) s = .next (s.respond (decodedAs v))

/-- R68, R46, R21 to R23 (U5): an encode depends on the low n bits of `val_in` alone; a checked decode on presence,
length and the first W lanes; a fixed-arity decode on the first W lanes; the presented inputs otherwise do not matter. -/
def Obligations.CommandsIgnoreUnreadPorts : Prop :=
  ∀ (i : Instr) (s : State) (v b : Word) (p : Bool) (n : Nat),
    (i.op = .enc → v.extractLsb' 0 (bits i.ty) = s.inp.valIn.extractLsb' 0 (bits i.ty) →
      exec i { s with inp := { s.inp with valIn := v, bin := b, inPresent := p, inLen := n } } = exec i s) ∧
    (i.op = .decs → (∀ k, k < width i.ty → lane b k = lane s.inp.bin k) →
      exec i { s with inp := { s.inp with valIn := v, bin := b } } = exec i s) ∧
    (i.op = .decf → (∀ k, k < width i.ty → lane b k = lane s.inp.bin k) →
      exec i { s with inp := { s.inp with valIn := v, bin := b, inPresent := p, inLen := n } } = exec i s)

/-! ## Errors -/

/-- R150, R146, R144, R141, R142: the one cause reported follows the priority ILLEGAL_CMD, ABSENT, TOO_SHORT; `err` is 1
exactly when there is one; `err_minlen` is W for ABSENT and TOO_SHORT and 0 otherwise. -/
def Obligations.ErrorCausePriority : Prop :=
  ∀ s : State, (s.params.latency = 0 ∨ s.inp.rst = false) → ∃ r, step s = .next (s.respond r) ∧
    (legal s.params.fixAll s.inp.cmd = false → r.err = true ∧ r.errCause = 3 ∧ r.errMinlen = 0) ∧
    (legal s.params.fixAll s.inp.cmd = true → fieldOp s.inp.cmd = 0b01#2 → s.inp.inPresent = false →
      r.err = true ∧ r.errCause = 1 ∧ r.errMinlen.toNat = widthOf (fieldSz s.inp.cmd)) ∧
    (legal s.params.fixAll s.inp.cmd = true → fieldOp s.inp.cmd = 0b01#2 → s.inp.inPresent = true →
      s.reqLen < widthOf (fieldSz s.inp.cmd) →
      r.err = true ∧ r.errCause = 2 ∧ r.errMinlen.toNat = widthOf (fieldSz s.inp.cmd)) ∧
    (legal s.params.fixAll s.inp.cmd = true →
      (fieldOp s.inp.cmd ≠ 0b01#2 ∨ (s.inp.inPresent = true ∧ widthOf (fieldSz s.inp.cmd) ≤ s.reqLen)) →
      r.err = false ∧ r.errCause = 0 ∧ r.errMinlen = 0)

/-- R143, R149, R161 over every response a step makes: an error carries no result, a success no error, and at most one
of the two result buses is in use. -/
def Obligations.EveryResponseIsCoherent : Prop :=
  ∀ s : State, (s.params.latency = 0 ∨ s.inp.rst = false) → ∃ r, step s = .next (s.respond r) ∧ r.Coherent

/-! ## The whole block -/

/-- R70: outside a reset edge, the instruction-by-instruction machine responds with `codec` of the period's inputs, the
spec's dispatch on the fields of the word. -/
def Obligations.StepRespondsWithCodec : Prop :=
  ∀ s : State, (s.params.latency = 0 ∨ s.inp.rst = false) →
    step s = .next (s.respond (codec s.params s.inp))

/-- R27, R29: with LATENCY = 0 the outputs of the period are `codec` of its inputs whatever `req_valid` is,
`rsp_valid` is `req_valid`, `rst` has no part (R170), and there is no pipeline. The clauses on `params` and `draws` are the
model's own, no rule's: where the parameters stand (log 1), and the counter of free values, unmoved because R27
leaves no output unspecified (log 5). -/
def Obligations.CombinationalOutputs : Prop :=
  ∀ s : State, s.params.latency = 0 → ∃ t, step s = .next t ∧
    t.out = ⟨s.inp.reqValid, codec s.params s.inp⟩ ∧ t.pipe = [] ∧ t.params = s.params ∧ t.draws = s.draws

/-- R28: an edge with `rst` = 0 moves every stage on by one, takes the period's request into S[1], and the period's
outputs were S[L]'s. -/
def Obligations.PipelineEdgeShiftsStages : Prop :=
  ∀ s : State, s.WF → 0 < s.params.latency → s.inp.rst = false → ∃ t, step s = .next t ∧
    t.pipe.length = s.params.latency ∧
    t.pipe[0]? = some (if s.inp.reqValid then some (codec s.params s.inp) else none) ∧
    (∀ j, j + 1 < s.params.latency → t.pipe[j + 1]? = s.pipe[j]?) ∧
    (s.resetDone = true → ∀ q, s.pipe[s.params.latency - 1]? = some q →
      t.out.rspValid = q.isSome ∧ ∀ r, q = some r → t.out.rsp = r)

/-- R171, R172: at an edge with `rst` = 1 every valid bit becomes 0, from any state at all, and the period's request
leaves nothing behind. The other clauses are the model's own, no rule's: `inp` and `host`, the host's next inputs, idle
past the list's end (log 3), `resetDone` (log 6) and `params` (log 1). -/
def Obligations.ResetEdgeClearsThePipeline : Prop :=
  ∀ s : State, 0 < s.params.latency → s.inp.rst = true → ∃ t, step s = .next t ∧
    t.pipe = List.replicate s.params.latency none ∧ t.resetDone = true ∧ t.params = s.params ∧
    t.inp = s.host.headD Inputs.idle ∧ t.host = s.host.tail

/-- R172, R173: no response is shown in the LATENCY periods after a reset edge, whatever the pipeline held and whatever
the host presents. -/
def Obligations.NothingShownRightAfterReset : Prop :=
  ∀ (s : State) (j : Nat), 0 < s.params.latency → s.inp.rst = true → 1 ≤ j → j ≤ s.params.latency →
    ∃ t, run (j + 1) s = .next t ∧ t.out.rspValid = false

/-- R29, R174 (the free values are the model's, log 5 and log 6): with LATENCY > 0, before the first reset edge every
output of the period is a fresh unspecified value, and after it every output but `rsp_valid` is, when S[L] is invalid. -/
def Obligations.UnspecifiedOutputsAreDrawn : Prop :=
  ∀ s : State, 0 < s.params.latency → ∃ t, step s = .next t ∧
    (s.resetDone = false →
      t.out = ⟨Config.freeRspValid s.draws, freeResponse s.draws⟩ ∧ t.draws = s.draws + 1 ∧ t.resetDone = s.inp.rst) ∧
    (s.resetDone = true → s.pipe.getLast? = some none →
      t.out = ⟨false, freeResponse s.draws⟩ ∧ t.draws = s.draws + 1)

/-- A power transition (R164, R174; the operation is the model's, log 18) asks for a reset edge again and keeps the
parameters, the inputs and the shape of the state. -/
def Obligations.PowerCycleNeedsReset : Prop :=
  ∀ s : State, s.WF → s.powerCycle.WF ∧ s.powerCycle.params = s.params ∧ s.powerCycle.inp = s.inp ∧
    s.powerCycle.host = s.host ∧ s.powerCycle.resetDone = false

/-- What a command leaves unchanged, for all 21 (R12, R20, R26, R48: no register, flag or memory exists to change): every
stage but the first holds what the stage before it held, and a period with no request puts an invalid stage in front
(R28). The other clauses are the model's own bookkeeping, no rule's: the parameters stay (log 1); the host's list moves on
by one, idle past its end (log 3); the counter of free values moves only where an output is unspecified (log 5); the reset
mark stays (log 6). -/
def Obligations.CommandFrame : Prop :=
  ∀ (i : Instr) (s : State), ∃ t, exec i s = .next t ∧
    t.params = s.params ∧ t.resetDone = s.resetDone ∧ t.inp = s.host.headD Inputs.idle ∧ t.host = s.host.tail ∧
    t.pipe.tail = s.pipe.take (s.params.latency - 1) ∧
    (s.params.latency = 0 → t.pipe = [] ∧ t.draws = s.draws) ∧
    (s.resetDone = true → s.lastStage ≠ none → t.draws = s.draws) ∧
    (0 < s.params.latency → s.inp.reqValid = false → t.pipe.head? = some none)

/-- No step ever stops, and neither does any run (R70: `codec` is total; R148, R151: an error is a response). -/
def Obligations.EveryRunContinues : Prop := ∀ (k : Nat) (s : State), ∃ t, run k s = .next t

/-! ## Invariants -/

/-- R171, R7: at reset every valid bit is 0 and the state is sound, for all parameters in range; the defaults are
LATENCY = 0, LEN_BITS = 4, FIX_ALL = 1. (Ports, `out` and `draws` at reset are the model's choice: log 3, 4, 5.) -/
def Obligations.ResetStateIsSound : Prop :=
  State.reset = State.resetWith ⟨0, 4, true⟩ ∧
  ∀ p : Params, p.WF → (State.resetWith p).Sound ∧ (State.resetWith p).params = p ∧
    ∀ q ∈ (State.resetWith p).pipe, q = none

/-- Every step keeps the state well-formed (LATENCY stages, length ports in their width) and the parameters. -/
def Obligations.StepKeepsWellFormed : Prop :=
  ∀ s t : State, s.WF → step s = .next t → t.WF ∧ t.params = s.params

/-- Every step keeps the state sound: well-formed, and every valid stage a coherent response once reset is applied. -/
def Obligations.StepKeepsSound : Prop :=
  ∀ s t : State, s.Sound → step s = .next t → t.Sound

/-- From a sound state with reset applied, every response a step shows as valid is coherent. -/
def Obligations.ShownResponsesAreCoherent : Prop :=
  ∀ s t : State, s.Sound → (s.params.latency = 0 ∨ s.resetDone = true) → step s = .next t →
    t.out.rspValid = true → t.out.rsp.Coherent

/-! ## Headline results -/

/-- R28, R176, R173, R175: whatever the host presents, a request of period k that is carried through has its response, and
only its response, on the outputs in period k + LATENCY; a period with no request shows none. So requests stay in
order, one per period, and none is dropped. -/
def Obligations.ResponseAppearsAfterLatency : Prop :=
  ∀ (s : State) (k : Nat), s.WF → CarriedThrough s k →
    ∃ t, run (k + s.params.latency + 1) s = .next t ∧
      t.out.rspValid = (s.inputsAt k).reqValid ∧
      ((s.inputsAt k).reqValid = true → t.out.rsp = codec s.params (s.inputsAt k))

/-- R30 (and R50, R55, R151): the response to a request depends on its five inputs and the parameters alone: two machines
with different pipelines, histories and surrounding requests answer the same request alike. -/
def Obligations.ResponsesAreIndependent : Prop :=
  ∀ (s u : State) (k m : Nat), s.WF → u.WF → s.params = u.params → CarriedThrough s k → CarriedThrough u m →
    (s.inputsAt k).reqValid = true → (u.inputsAt m).reqValid = true →
    (s.inputsAt k).cmd = (u.inputsAt m).cmd → (s.inputsAt k).valIn = (u.inputsAt m).valIn →
    (s.inputsAt k).bin = (u.inputsAt m).bin → (s.inputsAt k).inPresent = (u.inputsAt m).inPresent →
    (s.inputsAt k).inLen = (u.inputsAt m).inLen →
    ∃ t v, run (k + s.params.latency + 1) s = .next t ∧ run (m + u.params.latency + 1) u = .next v ∧
      t.out = v.out

/-- R105, R177, R73 through the machine at any LATENCY: a host that encodes a value, waits for the response, and decodes its
`bout` and `out_len` as the same type gets no error and the value's bits back. The host is the model's own
(`State.request`): it waits exactly LATENCY periods (log 16) and presents idle inputs meanwhile (log 3). -/
def Obligations.RoundTripThroughThePipeline : Prop :=
  ∀ (t : PrimType) (v : Word) (s : State), s.WF → (s.params.latency = 0 ∨ s.resetDone = true) →
    ∃ r u r' u', s.request (Inputs.encRequest t v) = some (r, u) ∧
      u.request (Inputs.decsRequest t r.bout true r.outLen.toNat) = some (r', u') ∧
      r'.err = false ∧ r'.vout.extractLsb' 0 (bits t) = v.extractLsb' 0 (bits t)

/-! ## The host's side -/

/-- R72, R73 (the host's conventions): the ports each form of the syntax drives, given the previous response where the form
names it: `enc.T v` in every spelling of v, `enc.T $vout`, `decs.T` of a list, of null and of `$bout`, `decf.T` of W bytes
and of `$bout`, and `.cmd 0xNN`; and that `decf.T` with other than W bytes does not assemble. That the references hold of an
error response too, whose zeros they copy, is the model's choice (log 20). -/
def Obligations.LinesDriveTheirPorts : Prop :=
  ∀ (lenBits : Nat) (t : PrimType) (bs : List Byte) (c : Cmd) (r : Response) (prev : Option Response),
    EncodeLineDrives lenBits t prev ∧
    (Line.encVout t).ports lenBits (some r) = some (requestOf .enc t r.vout 0 false 0) ∧
    (Line.decs t bs).ports lenBits prev =
      some (requestOf .decs t 0 (presentBytes bs) true (min bs.length (2 ^ lenBits - 1))) ∧
    (Line.decsNull t).ports lenBits prev = some (requestOf .decs t 0 0 false 0) ∧
    (Line.decsBout t).ports lenBits (some r) = some (requestOf .decs t 0 r.bout true r.outLen.toNat) ∧
    (bs.length = width t →
      (Line.decf t bs).ports lenBits prev = some (requestOf .decf t 0 (presentBytes bs) false 0)) ∧
    (bs.length ≠ width t → (Line.decf t bs).ports lenBits prev = none) ∧
    (Line.decfBout t).ports lenBits (some r) = some (requestOf .decf t 0 r.bout false 0) ∧
    (Line.cmd c).ports lenBits prev = some ⟨false, true, c, 0, 0, false, 0⟩ ∧
    (∀ k, k < 8 → lane (presentBytes bs) k = bs.getD k 0)
end

