-- ==== Sys2Proof/Laws/State.lean ====
section
/-! SUPPORT. One lemma per field for each update of the state, so that no proof unfolds a record update. -/

namespace Sys2Proof.Machine
variable (s : State) (o : Outputs) (q : List (Option Response)) (d : Bool) (r : Response) (i : Inputs) (c : Cmd)

@[simp] theorem closePeriod_params : (s.closePeriod o q d).params = s.params := rfl
@[simp] theorem closePeriod_inp : (s.closePeriod o q d).inp = s.host.headD Inputs.idle := rfl
@[simp] theorem closePeriod_host : (s.closePeriod o q d).host = s.host.tail := rfl
@[simp] theorem closePeriod_pipe : (s.closePeriod o q d).pipe = q := rfl
@[simp] theorem closePeriod_resetDone : (s.closePeriod o q d).resetDone = d := rfl
@[simp] theorem closePeriod_out : (s.closePeriod o q d).out = o := rfl
@[simp] theorem closePeriod_draws : (s.closePeriod o q d).draws = s.drawsAfter := rfl

@[simp] theorem respond_params : (s.respond r).params = s.params := rfl
@[simp] theorem respond_inp : (s.respond r).inp = s.host.headD Inputs.idle := rfl
@[simp] theorem respond_host : (s.respond r).host = s.host.tail := rfl
@[simp] theorem respond_pipe : (s.respond r).pipe = s.shifted r := rfl
@[simp] theorem respond_resetDone : (s.respond r).resetDone = s.resetDone := rfl
@[simp] theorem respond_out : (s.respond r).out = s.outputs r := rfl
@[simp] theorem respond_draws : (s.respond r).draws = s.drawsAfter := rfl

@[simp] theorem resetEdge_params : s.resetEdge.params = s.params := rfl
@[simp] theorem resetEdge_inp : s.resetEdge.inp = s.host.headD Inputs.idle := rfl
@[simp] theorem resetEdge_host : s.resetEdge.host = s.host.tail := rfl
@[simp] theorem resetEdge_pipe : s.resetEdge.pipe = List.replicate s.params.latency none := rfl
@[simp] theorem resetEdge_resetDone : s.resetEdge.resetDone = true := rfl
@[simp] theorem resetEdge_out : s.resetEdge.out = s.clockedOutputs := rfl
@[simp] theorem resetEdge_draws : s.resetEdge.draws = s.drawsAfter := rfl

@[simp] theorem powerCycle_params : s.powerCycle.params = s.params := rfl
@[simp] theorem powerCycle_inp : s.powerCycle.inp = s.inp := rfl
@[simp] theorem powerCycle_host : s.powerCycle.host = s.host := rfl
@[simp] theorem powerCycle_pipe_length : s.powerCycle.pipe.length = s.params.latency := by simp [State.powerCycle]
@[simp] theorem powerCycle_resetDone : s.powerCycle.resetDone = false := rfl
@[simp] theorem powerCycle_out : s.powerCycle.out = s.out := rfl

@[simp] theorem withCommand_rst : (i.withCommand c).rst = false := rfl
@[simp] theorem withCommand_reqValid : (i.withCommand c).reqValid = true := rfl
@[simp] theorem withCommand_cmd : (i.withCommand c).cmd = c := rfl
@[simp] theorem withCommand_valIn : (i.withCommand c).valIn = i.valIn := rfl
@[simp] theorem withCommand_bin : (i.withCommand c).bin = i.bin := rfl
@[simp] theorem withCommand_inPresent : (i.withCommand c).inPresent = i.inPresent := rfl
@[simp] theorem withCommand_inLen : (i.withCommand c).inLen = i.inLen := rfl

@[simp] theorem withFetchWord_params (nbits w : Nat) : (s.withFetchWord nbits w).params = s.params := rfl
@[simp] theorem withFetchWord_pipe (nbits w : Nat) : (s.withFetchWord nbits w).pipe = s.pipe := rfl
@[simp] theorem withFetchWord_inp (nbits w : Nat) :
    (s.withFetchWord nbits w).inp = s.inp.withCommand (BitVec.ofNat 8 (w % 2 ^ nbits)) := rfl

@[simp] theorem withFetchWord_host (nbits w : Nat) : (s.withFetchWord nbits w).host = s.host := rfl
@[simp] theorem withFetchWord_resetDone (nbits w : Nat) : (s.withFetchWord nbits w).resetDone = s.resetDone := rfl
@[simp] theorem withFetchWord_out (nbits w : Nat) : (s.withFetchWord nbits w).out = s.out := rfl
@[simp] theorem withFetchWord_draws (nbits w : Nat) : (s.withFetchWord nbits w).draws = s.draws := rfl

@[simp] theorem resetWith_params (p : Params) : (State.resetWith p).params = p := rfl
@[simp] theorem resetWith_pipe (p : Params) : (State.resetWith p).pipe = List.replicate p.latency none := rfl
@[simp] theorem resetWith_resetDone (p : Params) : (State.resetWith p).resetDone = true := rfl

@[simp] theorem inputsAt_zero : s.inputsAt 0 = s.inp := rfl

/-- The inputs of the k-th period after this one are those of the (k+1)-th period from now. -/
theorem inputsAt_closePeriod (k : Nat) : (s.closePeriod o q d).inputsAt k = s.inputsAt (k + 1) := by
  cases h : s.host <;> cases k <;> simp [State.inputsAt, State.closePeriod, h]

end Sys2Proof.Machine
end

