-- ==== Sys2Proof/Laws/Codec.lean ====
section
/-! SUPPORT. What each datapath's response looks like, and that `codec` agrees with decoding. -/

namespace Sys2Proof.Machine

/-! ## Widths -/

theorem widthOf_cases (sz : BitVec 2) : widthOf sz = 1 ∨ widthOf sz = 2 ∨ widthOf sz = 4 ∨ widthOf sz = 8 := by
  revert sz; decide

theorem bitsOf_le (sz : BitVec 2) : bitsOf sz ≤ 64 := by revert sz; decide

theorem ofNat_widthOf_isWidth (sz : BitVec 2) : isWidth (BitVec.ofNat 4 (widthOf sz)) := by revert sz; decide

theorem eight_mul_outLen (sz : BitVec 2) : 8 * (BitVec.ofNat 4 (widthOf sz)).toNat = bitsOf sz := by
  revert sz; decide

/-- A left-justified n-bit value leaves nothing above lane W-1 (R80). -/
theorem leftJustified_shiftLeft (sz : BitVec 2) (v : BitVec (bitsOf sz)) :
    (v.setWidth 64 <<< (64 - bitsOf sz)) <<< (8 * (BitVec.ofNat 4 (widthOf sz)).toNat) = 0 := by
  have hle := bitsOf_le sz
  rw [eight_mul_outLen]
  ext j hj
  simp
  omega

theorem widthOf_le (sz : BitVec 2) : widthOf sz ≤ 8 := by revert sz; decide

theorem widthOf_pos (sz : BitVec 2) : 0 < widthOf sz := by revert sz; decide

theorem ofNat_widthOf_toNat (sz : BitVec 2) : (BitVec.ofNat 4 (widthOf sz)).toNat = widthOf sz := by
  revert sz; decide

/-! ## The ports of each response -/

theorem encoded_eq (b : Word) (w : Nat) : encoded b w = ⟨b, BitVec.ofNat 4 w, 0, false, 0, 0⟩ := rfl

theorem decoded_eq (v : Word) (w : Nat) : decoded v w = ⟨0, 0, v, false, 0, 0⟩ := rfl

theorem raiseAbsent_eq (w : Nat) : raiseInvalidArgument .absent w = ⟨0, 0, 0, true, 1, BitVec.ofNat 4 w⟩ := rfl

theorem raiseTooShort_eq (w : Nat) : raiseInvalidArgument .tooShort w = ⟨0, 0, 0, true, 2, BitVec.ofNat 4 w⟩ := rfl

theorem raiseIllegalCommand_eq : raiseIllegalCommand = ⟨0, 0, 0, true, 3, 0⟩ := rfl

theorem enc_eq (sz : BitVec 2) (v : Word) :
    enc sz v = ⟨(encodeOperand sz v).setWidth 64 <<< (64 - bitsOf sz), BitVec.ofNat 4 (widthOf sz), 0, false, 0, 0⟩ :=
  rfl

theorem decs_absent (sz : BitVec 2) (k : Kind) (bin : Word) (n : Nat) :
    decs sz k bin false n = ⟨0, 0, 0, true, 1, BitVec.ofNat 4 (widthOf sz)⟩ := rfl

theorem decs_tooShort (sz : BitVec 2) (k : Kind) (bin : Word) {n : Nat} (h : n < widthOf sz) :
    decs sz k bin true n = ⟨0, 0, 0, true, 2, BitVec.ofNat 4 (widthOf sz)⟩ := by
  simp [decs, h, raiseTooShort_eq]

theorem decs_ok (sz : BitVec 2) (k : Kind) (bin : Word) {n : Nat} (h : widthOf sz ≤ n) :
    decs sz k bin true n = ⟨0, 0, ext k (assemble sz bin), false, 0, 0⟩ := by
  simp [decs, Nat.not_lt.mpr h, decoded_eq]

theorem decf_eq (sz : BitVec 2) (k : Kind) (bin : Word) :
    decf sz k bin = ⟨0, 0, ext k (assemble sz bin), false, 0, 0⟩ := rfl

/-- The low n bits of an extension are the raw bits, for every kind (R69). -/
theorem ext_low (sz : BitVec 2) (k : Kind) (raw : BitVec (bitsOf sz)) :
    (ext k raw).extractLsb' 0 (bitsOf sz) = raw := by
  have h := bitsOf_le sz
  ext j hj
  have h64 : j < 64 := by omega
  cases k <;> simp [ext, BitVec.getElem_signExtend, hj, h64]

/-- Bit i of the assembled value is bit i + 64 - n of `bin` (R69, first form). -/
theorem assemble_getLsbD (sz : BitVec 2) (bin : Word) (j : Nat) (h : j < bitsOf sz) :
    (assemble sz bin).getLsbD j = bin.getLsbD (64 - bitsOf sz + j) := by
  simp [assemble, h]

/-- Bit j of an encode's `bout` is bit j - (64 - n) of the value, or 0 below (R80). -/
theorem enc_bout_getLsbD (sz : BitVec 2) (v : Word) (j : Nat) (h : j < 64) :
    (enc sz v).bout.getLsbD j = (decide (64 - bitsOf sz ≤ j) && v.getLsbD (j - (64 - bitsOf sz))) := by
  have hle := bitsOf_le sz
  have h1 : j - (64 - bitsOf sz) < 64 := by omega
  rw [enc_eq]
  by_cases hj : j < 64 - bitsOf sz
  · simp [h, hj]
    omega
  · have h2 : j - (64 - bitsOf sz) < bitsOf sz := by omega
    simp [encodeOperand, h, hj, h1, h2]
    omega

/-! ## Coherence of every response -/

theorem raiseError_coherent (c : Cause) (sz : BitVec 2) (h : c ≠ .none) :
    (raiseError c (widthOf sz)).Coherent := by
  have hw := ofNat_widthOf_isWidth sz
  cases c <;> simp_all [raiseError, Response.Coherent, Cause.err, Cause.code, Cause.minlen]

theorem raiseIllegalCommand_coherent : raiseIllegalCommand.Coherent := by decide

theorem enc_coherent (sz : BitVec 2) (v : Word) : (enc sz v).Coherent := by
  have hw := ofNat_widthOf_isWidth sz
  have hz := leftJustified_shiftLeft sz (encodeOperand sz v)
  refine ⟨by simp [enc, encoded, Cause.err, Cause.code], by simp [enc, encoded, Cause.err, Cause.code],
    by simp [enc, encoded, Cause.minlen], by simp [enc, encoded, Cause.code], Or.inr hw, hz, by simp [enc, encoded]⟩

theorem decoded_coherent (v : Word) (w : Nat) : (decoded v w).Coherent := by
  simp [Response.Coherent, decoded, Cause.err, Cause.code, Cause.minlen]

theorem decf_coherent (sz : BitVec 2) (k : Kind) (bin : Word) : (decf sz k bin).Coherent := decoded_coherent _ _

theorem decs_coherent (sz : BitVec 2) (k : Kind) (bin : Word) (p : Bool) (len : Nat) :
    (decs sz k bin p len).Coherent := by
  unfold decs
  split
  · exact raiseError_coherent _ _ (by decide)
  · split
    · exact raiseError_coherent _ _ (by decide)
    · exact decoded_coherent _ _

/-! ## The response of each command -/

/-- The response a command gives to the inputs `inp`: the datapath of its family at its type's SZ and KIND (R70),
ILLEGAL_CMD where the command does not exist (R122). -/
def responseOf (p : Params) (inp : Inputs) (i : Instr) : Response :=
  match i.op with
  | .enc => enc i.ty.sz inp.valIn
  | .decs => decs i.ty.sz i.ty.kind inp.bin inp.inPresent (portLen p.lenBits inp.inLen)
  | .decf => if i.wf p.fixAll then decf i.ty.sz i.ty.kind inp.bin else raiseIllegalCommand

/-- The meaning of every command is to respond with `responseOf`. -/
theorem exec_eq_respond (i : Instr) (s : State) :
    exec i s = .next (s.respond (responseOf s.params s.inp i)) := by
  cases i <;> rfl

/-- An encode responds with `enc` at its type's SZ (R80). -/
theorem exec_enc (i : Instr) (s : State) (h : i.op = .enc) :
    exec i s = .next (s.respond (enc i.ty.sz s.inp.valIn)) := by
  rw [exec_eq_respond]; simp [responseOf, h]

/-- A checked decode responds with `decs` at its type's SZ and KIND (R100). -/
theorem exec_decs (i : Instr) (s : State) (h : i.op = .decs) :
    exec i s = .next (s.respond (decs i.ty.sz i.ty.kind s.inp.bin s.inp.inPresent s.reqLen)) := by
  rw [exec_eq_respond]; simp [responseOf, h, State.reqLen]

/-- A fixed-arity decode that exists responds with `decf` at its type's SZ and KIND (R120). -/
theorem exec_decf (i : Instr) (s : State) (h : i.op = .decf) (hw : i.wf s.params.fixAll = true) :
    exec i s = .next (s.respond (decf i.ty.sz i.ty.kind s.inp.bin)) := by
  rw [exec_eq_respond]; simp [responseOf, h, hw]

theorem responseOf_coherent (p : Params) (inp : Inputs) (i : Instr) : (responseOf p inp i).Coherent := by
  unfold responseOf
  split
  · exact enc_coherent _ _
  · exact decs_coherent _ _ _ _ _
  · split
    · exact decf_coherent _ _ _
    · exact raiseIllegalCommand_coherent

/-! ## Decoding and `codec` -/

/-- The response of a word: its command's, or ILLEGAL_CMD for a reserved word. -/
def responseOfWord (p : Params) (inp : Inputs) : Except DecodeReject Instr → Response
  | .ok i => responseOf p inp i
  | .error _ => raiseIllegalCommand

theorem responseOfWord_coherent (p : Params) (inp : Inputs) (e : Except DecodeReject Instr) :
    (responseOfWord p inp e).Coherent := by
  cases e
  · exact raiseIllegalCommand_coherent
  · exact responseOf_coherent _ _ _

/-- Whether the decoder's answer on a word agrees with `legal` and with the word's fields. -/
def decodeAgrees (f : Bool) (c : Cmd) : Bool :=
  match decode f c with
  | .ok i => legal f c && i.wf f && decide (opOf (fieldOp c) = some i.op) &&
      decide (kindOf (fieldKind c) = some i.ty.kind) && decide (fieldSz c = i.ty.sz)
  | .error _ => !legal f c

theorem decodeAgrees_all : ∀ (f : Bool) (c : Cmd), decodeAgrees f c = true := by decide

/-- What a decoded command's fields are: its word is legal and carries its OP, KIND and SZ. -/
theorem decode_ok_fields {f : Bool} {c : Cmd} {i : Instr} (h : decode f c = .ok i) :
    legal f c = true ∧ i.wf f = true ∧ opOf (fieldOp c) = some i.op ∧ kindOf (fieldKind c) = some i.ty.kind ∧
      fieldSz c = i.ty.sz := by
  have := decodeAgrees_all f c
  simp [decodeAgrees, h] at this
  tauto

/-- A word the decoder rejects is not legal. -/
theorem decode_error_reserved {f : Bool} {c : Cmd} {e : DecodeReject} (h : decode f c = .error e) :
    legal f c = false := by
  simpa [decodeAgrees, h] using decodeAgrees_all f c

/-- `codec`'s dispatch on fields gives the response of the decoded word (R70). -/
theorem codec_eq_responseOfWord (p : Params) (inp : Inputs) :
    codec p inp = responseOfWord p inp (decode p.fixAll inp.cmd) := by
  unfold codec
  cases h : decode p.fixAll inp.cmd with
  | error e => simp [decode_error_reserved h, responseOfWord]
  | ok i =>
    obtain ⟨h1, h2, h3, h4, h5⟩ := decode_ok_fields h
    simp only [h1, h3, h4, h5, responseOfWord, responseOf, h2]
    cases i.op <;> rfl

end Sys2Proof.Machine
end

