-- ==== Sys2Proof/Laws/Step.lean ====
section
/-! SUPPORT. What one step can do, said once: a reset edge, or responding with one coherent response. -/

namespace Sys2Proof.Machine

/-- A step is a reset edge or a response to this period's inputs; it never stops. -/
theorem step_eq (s : State) : step s =
    .next (if s.resetting then s.resetEdge else s.respond (responseOfWord s.params s.inp s.command)) := by
  unfold step
  split
  · rfl
  · cases h : s.command <;> simp [exec_eq_respond, responseOfWord, execReserved]

/-- Everything a step can do. -/
theorem step_cases {s t : State} (h : step s = .next t) :
    (s.resetting = true ∧ t = s.resetEdge) ∨
    (s.resetting = false ∧ ∃ r : Response, r.Coherent ∧ t = s.respond r) := by
  rw [step_eq] at h
  cases hr : s.resetting <;> simp [hr] at h
  · exact .inr ⟨rfl, _, responseOfWord_coherent _ _ _, h.symm⟩
  · exact .inl ⟨rfl, h.symm⟩

theorem resetting_iff (s : State) : s.resetting = true ↔ 0 < s.params.latency ∧ s.inp.rst = true := by
  simp [State.resetting, State.clocked]

/-- Closing a period keeps the state well-formed if the new pipeline has LATENCY stages. -/
theorem closePeriod_wf {s : State} {o : Outputs} {q : List (Option Response)} {d : Bool} (h : s.WF)
    (hq : q.length = s.params.latency) : (s.closePeriod o q d).WF := by
  obtain ⟨h1, -, -, h4⟩ := h
  refine ⟨h1, hq, ?_, fun i hi => h4 i (List.mem_of_mem_tail hi)⟩
  show (s.host.headD Inputs.idle).inLen < _
  cases hh : s.host with
  | nil => simp [Inputs.idle]
  | cons a l => exact h4 a (by simp [hh])

/-! ## The pipeline -/

theorem shifted_length (s : State) (r : Response) (h : s.pipe.length = s.params.latency) :
    (s.shifted r).length = s.params.latency := by
  simp [State.shifted, h]

/-- Every stage after an edge is the new one or an old one. -/
theorem mem_shifted {s : State} {r : Response} {q : Option Response} (h : q ∈ s.shifted r) :
    q = s.newStage r ∨ q ∈ s.pipe := by
  simpa using List.mem_of_mem_take h

/-- With LATENCY > 0 the first stage after an edge is the new one. -/
theorem shifted_head (s : State) (r : Response) (h : 0 < s.params.latency) :
    (s.shifted r)[0]? = some (s.newStage r) := by
  simp [State.shifted, h]

/-- Every later stage takes the one before it. -/
theorem shifted_succ (s : State) (r : Response) (j : Nat) (h : j + 1 < s.params.latency) :
    (s.shifted r)[j + 1]? = s.pipe[j]? := by
  simp [State.shifted, h]

/-- S[L] is the stage at position LATENCY - 1. -/
theorem lastStage_eq (s : State) (h : s.pipe.length = s.params.latency) :
    s.lastStage = (s.pipe[s.params.latency - 1]?).join := by
  simp [State.lastStage, List.getLast?_eq_getElem?, h]

theorem clocked_iff (s : State) : s.clocked = true ↔ 0 < s.params.latency := by simp [State.clocked]

/-! ## Running -/

@[simp] theorem run_zero (s : State) : run 0 s = .next s := rfl

theorem run_succ (s t : State) (k : Nat) (h : step s = .next t) : run (k + 1) s = run k t := by
  simp [run, h]

/-- `run` of the model is the interface's run of `core`. -/
theorem core_run (k : Nat) (s : State) : Host.Core.run Sys2Proof.core k s = run k s := by
  induction k generalizing s with
  | zero => rfl
  | succ k ih =>
    have h2 : Host.Core.step Sys2Proof.core s = Host.Outcome.next _ := step_eq s
    rw [run_succ s _ k (step_eq s), ← ih]
    simp only [Host.Core.run, h2]

end Sys2Proof.Machine
end

