-- ==== Sys2Proof/Laws/HostRun.lean ====
section
/-! SUPPORT. The ports each request form drives, and presenting a request. -/

namespace Sys2Proof.Machine
variable (t : PrimType) (v b : Word) (p : Bool) (n : Nat) (s : State) (i : Inputs)

theorem encRequest_eq : Inputs.encRequest t v = ⟨false, true, encode (.ofOpType .enc t), v, 0, false, 0⟩ := rfl

theorem decsRequest_eq : Inputs.decsRequest t b p n = ⟨false, true, encode (.ofOpType .decs t), 0, b, p, n⟩ := rfl

theorem decfRequest_eq : Inputs.decfRequest t b = ⟨false, true, encode (.ofOpType .decf t), 0, b, false, 0⟩ := rfl

@[simp] theorem issue_params : (s.issue i).params = s.params := rfl
@[simp] theorem issue_inp : (s.issue i).inp = i := rfl
@[simp] theorem issue_host : (s.issue i).host = [] := rfl
@[simp] theorem issue_pipe : (s.issue i).pipe = s.pipe := rfl
@[simp] theorem issue_resetDone : (s.issue i).resetDone = s.resetDone := rfl

@[simp] theorem ofOpType_op (o : Op) : (Instr.ofOpType o t).op = o := by cases o <;> cases t <;> rfl
@[simp] theorem ofOpType_ty (o : Op) : (Instr.ofOpType o t).ty = t := by cases o <;> cases t <;> rfl

/-- A command is the one of its family and type. -/
theorem ofOpType_op_ty (j : Instr) : Instr.ofOpType j.op j.ty = j := by cases j <;> rfl

/-- The bytes a host puts on the lanes of a presented sequence: byte k on lane k, 0 past its end (R22, R72). -/
theorem lane_presentBytes (bs : List Byte) (k : Nat) (hk : k < 8) : lane (presentBytes bs) k = bs.getD k 0 := by
  unfold presentBytes lane
  interval_cases k <;> (ext j hj; simp) <;> grind

/-- The value operands that assemble: what each spelling's pattern is (R72). -/
theorem pattern_hex (x : Nat) :
    (Operand.hex x).pattern t = if x < 2 ^ bits t then some (BitVec.ofNat 64 x) else none := rfl

theorem pattern_dec_signed (z : Int) (h : t.kind = .sint) : (Operand.dec z).pattern t =
    if -(2 ^ (bits t - 1) : Int) ≤ z ∧ z < 2 ^ (bits t - 1) then some ((BitVec.ofInt (bits t) z).setWidth 64)
    else none := by
  simp [Operand.pattern, h]

theorem pattern_dec_char (z : Int) : (Operand.dec z).pattern .char =
    if 0 ≤ z ∧ z < 65536 then some ((BitVec.ofInt 16 z).setWidth 64) else none := rfl

theorem pattern_dec_float (z : Int) (h : t.kind = .fp) : (Operand.dec z).pattern t = none := by
  simp [Operand.pattern, h]

theorem pattern_chr (u : BitVec 16) :
    (Operand.chr u).pattern t = if t = .char then some (u.setWidth 64) else none := rfl

end Sys2Proof.Machine
end

