-- ==== Sys2Proof/Laws/PerInstr.lean ====
section
/-! SUPPORT. The per-instruction family WordRoundTrip: decoding a command's word gives the command back. -/

namespace Sys2Proof.Laws.WordRoundTrip

/-- Decoding the word of a command that exists gives that command back, at either value of FIX_ALL. -/
def Statement (i : Instr) : Prop := ∀ f : Bool, i.wf f = true → decode f (encode i) = .ok i

theorem encB : Statement .encB := by unfold Statement; decide
theorem encS : Statement .encS := by unfold Statement; decide
theorem encC : Statement .encC := by unfold Statement; decide
theorem encI : Statement .encI := by unfold Statement; decide
theorem encL : Statement .encL := by unfold Statement; decide
theorem encF : Statement .encF := by unfold Statement; decide
theorem encD : Statement .encD := by unfold Statement; decide
theorem decsB : Statement .decsB := by unfold Statement; decide
theorem decsS : Statement .decsS := by unfold Statement; decide
theorem decsC : Statement .decsC := by unfold Statement; decide
theorem decsI : Statement .decsI := by unfold Statement; decide
theorem decsL : Statement .decsL := by unfold Statement; decide
theorem decsF : Statement .decsF := by unfold Statement; decide
theorem decsD : Statement .decsD := by unfold Statement; decide
theorem decfB : Statement .decfB := by unfold Statement; decide
theorem decfS : Statement .decfS := by unfold Statement; decide
theorem decfC : Statement .decfC := by unfold Statement; decide
theorem decfI : Statement .decfI := by unfold Statement; decide
theorem decfL : Statement .decfL := by unfold Statement; decide
theorem decfF : Statement .decfF := by unfold Statement; decide
theorem decfD : Statement .decfD := by unfold Statement; decide

end Sys2Proof.Laws.WordRoundTrip
end

