-- ==== Sys2Proof/Tests/Slice0.lean ====
section
/-! SUPPORT. The model's own tests: ill-formed terms refused, words decoded, one step per vector of
spec/95_test_vectors.md, pipeline and reset steps of its program P4, parsing, and a witness for the hypotheses of each
statement. -/

namespace Sys2Proof.Tests
open Sys2Proof.Machine Sys2Proof.Statements

/-! ## Well-formedness refuses -/

theorem test_wf_refuses_decfB_without_fix_all : Instr.wf false .decfB = false := by decide
theorem test_wf_refuses_decfF_without_fix_all : Instr.wf false .decfF = false := by decide
theorem test_wf_keeps_decfD_without_fix_all : Instr.wf false .decfD = true := by decide
theorem test_params_refuse_three_length_bits : ¬ (⟨0, 3, true⟩ : Params).WF := by decide
theorem test_inputs_refuse_wide_length : ¬ (⟨false, true, 0, 0, 0, true, 16⟩ : Inputs).WF ⟨0, 4, true⟩ := by decide
theorem test_state_refuses_missing_stage :
    ¬ ({ State.resetWith ⟨2, 4, true⟩ with pipe := [none] } : State).WF := by decide
theorem test_coherent_refuses_error_with_value : ¬ (⟨0, 0, 5, true, 1, 4⟩ : Response).Coherent := by decide
theorem test_coherent_refuses_byte_past_length : ¬ (⟨0x1234000000000000, 1, 0, false, 0, 0⟩ : Response).Coherent := by
  decide

/-! ## Decoding: the words of 30_encoding.md R65, RSV OP KIND SZ written out -/

theorem test_decode_enc_words :
    decode true 0b00000000#8 = .ok .encB ∧ decode true 0b00000001#8 = .ok .encS ∧
    decode true 0b00000101#8 = .ok .encC ∧ decode true 0b00000010#8 = .ok .encI ∧
    decode true 0b00000011#8 = .ok .encL ∧ decode true 0b00001010#8 = .ok .encF ∧
    decode true 0b00001011#8 = .ok .encD := by decide
theorem test_decode_decs_words :
    decode true 0b00010000#8 = .ok .decsB ∧ decode true 0b00010001#8 = .ok .decsS ∧
    decode true 0b00010101#8 = .ok .decsC ∧ decode true 0b00010010#8 = .ok .decsI ∧
    decode true 0b00010011#8 = .ok .decsL ∧ decode true 0b00011010#8 = .ok .decsF ∧
    decode true 0b00011011#8 = .ok .decsD := by decide
theorem test_decode_decf_words :
    decode true 0b00100000#8 = .ok .decfB ∧ decode true 0b00100001#8 = .ok .decfS ∧
    decode true 0b00100101#8 = .ok .decfC ∧ decode true 0b00100010#8 = .ok .decfI ∧
    decode true 0b00100011#8 = .ok .decfL ∧ decode true 0b00101010#8 = .ok .decfF ∧
    decode true 0b00101011#8 = .ok .decfD := by decide
theorem test_decode_rejects_by_name :
    decode true 0x40#8 = .error .reservedRsv ∧ decode true 0x30#8 = .error .reservedOp ∧
    decode true 0x0C#8 = .error .reservedKind ∧ decode true 0x09#8 = .error .noSuchType ∧
    decode false 0x2A#8 = .error .absentFixedForm := by decide
theorem test_decodeTableWord :
    decodeTableWord 8 0x1A = some .decsF ∧ decodeTableWord 8 0x3F = none ∧ decodeTableWord 8 0x11A = none := by decide

/-! ## One step per vector -/

/-- A machine with LATENCY = 0, LEN_BITS = 4 and the given FIX_ALL, with `inp` on its ports. -/
def combinational (fixAll : Bool) (inp : Inputs) : State := { State.resetWith ⟨0, 4, fixAll⟩ with inp := inp }

/-- The outputs after one step. -/
def outputsOf (s : State) : Option Outputs :=
  match step s with
  | .next t => some t.out
  | .fault _ => none
  | .refused _ => none

/-- The response shown as valid in the period of `inp`. -/
def response (fixAll : Bool) (inp : Inputs) : Option Response :=
  match outputsOf (combinational fixAll inp) with
  | some o => if o.rspValid then some o.rsp else none
  | none => none

/-- 95_test_vectors.md E-B4. -/
theorem test_encB_ignores_high_bits :
    response true ⟨false, true, 0x00, 0x00000000000001FF, 0, false, 0⟩ = some ⟨0xFF00000000000000, 1, 0x0000000000000000, false, 0, 0⟩ := by
  decide

/-- 95_test_vectors.md E-S4. -/
theorem test_encS_negative :
    response true ⟨false, true, 0x01, 0x000000000000F00F, 0, false, 0⟩ = some ⟨0xF00F000000000000, 2, 0x0000000000000000, false, 0, 0⟩ := by
  decide

/-- 95_test_vectors.md E-C2. -/
theorem test_encC_all_ones :
    response true ⟨false, true, 0x05, 0x000000000000FFFF, 0, false, 0⟩ = some ⟨0xFFFF000000000000, 2, 0x0000000000000000, false, 0, 0⟩ := by
  decide

/-- 95_test_vectors.md E-I4. -/
theorem test_encI_ignores_high_bits :
    response true ⟨false, true, 0x02, 0xDEADBEEF12345678, 0, false, 0⟩ = some ⟨0x1234567800000000, 4, 0x0000000000000000, false, 0, 0⟩ := by
  decide

/-- 95_test_vectors.md E-L1. -/
theorem test_encL_lane_order :
    response true ⟨false, true, 0x03, 0x0102030405060708, 0, false, 0⟩ = some ⟨0x0102030405060708, 8, 0x0000000000000000, false, 0, 0⟩ := by
  decide

/-- 95_test_vectors.md E-F3. -/
theorem test_encF_keeps_signalling_nan :
    response true ⟨false, true, 0x0A, 0x000000007F800001, 0, false, 0⟩ = some ⟨0x7F80000100000000, 4, 0x0000000000000000, false, 0, 0⟩ := by
  decide

/-- 95_test_vectors.md E-D3. -/
theorem test_encD_keeps_nan_payload :
    response true ⟨false, true, 0x0B, 0xFFF8000000000001, 0, false, 0⟩ = some ⟨0xFFF8000000000001, 8, 0x0000000000000000, false, 0, 0⟩ := by
  decide

/-- 95_test_vectors.md D-B3. -/
theorem test_decsB_sign :
    response true ⟨false, true, 0x10, 0, 0x8001000000000000, true, 2⟩ = some ⟨0x0000000000000000, 0, 0xFFFFFFFFFFFFFF80, false, 0, 0⟩ := by
  decide

/-- 95_test_vectors.md D-B4. -/
theorem test_decsB_absent :
    response true ⟨false, true, 0x10, 0, 0, false, 0⟩ = some ⟨0x0000000000000000, 0, 0x0000000000000000, true, 1, 1⟩ := by
  decide

/-- 95_test_vectors.md D-X3. -/
theorem test_decsS_masking :
    response true ⟨false, true, 0x11, 0, 0x7FFFAABBCCDDEEFF, true, 2⟩ = some ⟨0x0000000000000000, 0, 0x0000000000007FFF, false, 0, 0⟩ := by
  decide

/-- 95_test_vectors.md D-S6. -/
theorem test_decsS_one_byte_short :
    response true ⟨false, true, 0x11, 0, 0x1200000000000000, true, 1⟩ = some ⟨0x0000000000000000, 0, 0x0000000000000000, true, 2, 2⟩ := by
  decide

/-- 95_test_vectors.md D-C2. -/
theorem test_decsC_unsigned :
    response true ⟨false, true, 0x15, 0, 0xFFFF000000000000, true, 2⟩ = some ⟨0x0000000000000000, 0, 0x000000000000FFFF, false, 0, 0⟩ := by
  decide

/-- 95_test_vectors.md D-C3. -/
theorem test_decsC_one_byte_short :
    response true ⟨false, true, 0x15, 0, 0xFF00000000000000, true, 1⟩ = some ⟨0x0000000000000000, 0, 0x0000000000000000, true, 2, 2⟩ := by
  decide

/-- 95_test_vectors.md D-X1. -/
theorem test_decsI_absent_before_short :
    response true ⟨false, true, 0x12, 0, 0x7FFFFFFF00000000, false, 8⟩ = some ⟨0x0000000000000000, 0, 0x0000000000000000, true, 1, 4⟩ := by
  decide

/-- 95_test_vectors.md D-I4. -/
theorem test_decsI_fifth_byte_ignored :
    response true ⟨false, true, 0x12, 0, 0x123456789A000000, true, 5⟩ = some ⟨0x0000000000000000, 0, 0x0000000012345678, false, 0, 0⟩ := by
  decide

/-- 95_test_vectors.md D-X2. -/
theorem test_decsL_long_sequence :
    response true ⟨false, true, 0x13, 0, 0x0102030405060708, true, 15⟩ = some ⟨0x0000000000000000, 0, 0x0102030405060708, false, 0, 0⟩ := by
  decide

/-- 95_test_vectors.md D-L4. -/
theorem test_decsL_one_byte_short :
    response true ⟨false, true, 0x13, 0, 0x0102030405060700, true, 7⟩ = some ⟨0x0000000000000000, 0, 0x0000000000000000, true, 2, 8⟩ := by
  decide

/-- 95_test_vectors.md D-F3. -/
theorem test_decsF_zero_extended :
    response true ⟨false, true, 0x1A, 0, 0xFF80000100000000, true, 4⟩ = some ⟨0x0000000000000000, 0, 0x00000000FF800001, false, 0, 0⟩ := by
  decide

/-- 95_test_vectors.md D-F4. -/
theorem test_decsF_minimum_is_four :
    response true ⟨false, true, 0x1A, 0, 0x3F80000000000000, true, 3⟩ = some ⟨0x0000000000000000, 0, 0x0000000000000000, true, 2, 4⟩ := by
  decide

/-- 95_test_vectors.md D-D2. -/
theorem test_decsD_nan_payload :
    response true ⟨false, true, 0x1B, 0, 0xFFF8000000000001, true, 8⟩ = some ⟨0x0000000000000000, 0, 0xFFF8000000000001, false, 0, 0⟩ := by
  decide

/-- 95_test_vectors.md D-D3. -/
theorem test_decsD_minimum_is_eight :
    response true ⟨false, true, 0x1B, 0, 0x3FF0000000000000, true, 4⟩ = some ⟨0x0000000000000000, 0, 0x0000000000000000, true, 2, 8⟩ := by
  decide

/-- 95_test_vectors.md F-B1. -/
theorem test_decfB_sign :
    response true ⟨false, true, 0x20, 0, 0xFF00000000000000, false, 0⟩ = some ⟨0x0000000000000000, 0, 0xFFFFFFFFFFFFFFFF, false, 0, 0⟩ := by
  decide

/-- 95_test_vectors.md F-B3. -/
theorem test_decfB_absent_form :
    response false ⟨false, true, 0x20, 0, 0x7F00000000000000, false, 0⟩ = some ⟨0x0000000000000000, 0, 0x0000000000000000, true, 3, 0⟩ := by
  decide

/-- 95_test_vectors.md F-X2. -/
theorem test_decfS_checks_nothing :
    response true ⟨false, true, 0x21, 0, 0x8001000000000000, true, 0⟩ = some ⟨0x0000000000000000, 0, 0xFFFFFFFFFFFF8001, false, 0, 0⟩ := by
  decide

/-- 95_test_vectors.md F-C2. -/
theorem test_decfC_unsigned :
    response true ⟨false, true, 0x25, 0, 0xFFFF000000000000, false, 0⟩ = some ⟨0x0000000000000000, 0, 0x000000000000FFFF, false, 0, 0⟩ := by
  decide

/-- 95_test_vectors.md F-X1. -/
theorem test_decfI_high_lanes_ignored :
    response true ⟨false, true, 0x22, 0, 0x7FFFFFFFAABBCCDD, false, 0⟩ = some ⟨0x0000000000000000, 0, 0x000000007FFFFFFF, false, 0, 0⟩ := by
  decide

/-- 95_test_vectors.md F-L1. -/
theorem test_decfL_lane_order :
    response true ⟨false, true, 0x23, 0, 0x0102030405060708, false, 0⟩ = some ⟨0x0000000000000000, 0, 0x0102030405060708, false, 0, 0⟩ := by
  decide

/-- 95_test_vectors.md F-F1. -/
theorem test_decfF_keeps_signalling_nan :
    response true ⟨false, true, 0x2A, 0, 0x7F80000100000000, false, 0⟩ = some ⟨0x0000000000000000, 0, 0x000000007F800001, false, 0, 0⟩ := by
  decide

/-- 95_test_vectors.md F-F3. -/
theorem test_decfF_absent_form :
    response false ⟨false, true, 0x2A, 0, 0x7F80000100000000, false, 0⟩ = some ⟨0x0000000000000000, 0, 0x0000000000000000, true, 3, 0⟩ := by
  decide

/-- 95_test_vectors.md F-D3. -/
theorem test_decfD_without_fix_all :
    response false ⟨false, true, 0x2B, 0, 0x3FF0000000000000, false, 0⟩ = some ⟨0x0000000000000000, 0, 0x3FF0000000000000, false, 0, 0⟩ := by
  decide

/-- 95_test_vectors.md I-1. -/
theorem test_reserved_kind :
    response true ⟨false, true, 0x04, 0, 0, false, 0⟩ = some ⟨0x0000000000000000, 0, 0x0000000000000000, true, 3, 0⟩ := by
  decide

/-- 95_test_vectors.md I-9. -/
theorem test_reserved_rsv_over_decsB_absent :
    response true ⟨false, true, 0x50, 0, 0, false, 0⟩ = some ⟨0x0000000000000000, 0, 0x0000000000000000, true, 3, 0⟩ := by
  decide

/-- 95_test_vectors.md I-8. -/
theorem test_reserved_all_ones :
    response true ⟨false, true, 0xFF, 0, 0, false, 0⟩ = some ⟨0x0000000000000000, 0, 0x0000000000000000, true, 3, 0⟩ := by
  decide

/-! ## Pipeline and reset: periods of program P4 (95_test_vectors.md), one step each -/

/-- P4's machine: LATENCY = 2. -/
def pipelined (inp : Inputs) (pipe : List (Option Response)) : State :=
  { State.resetWith ⟨2, 4, true⟩ with inp := inp, pipe := pipe }

/-- The pipeline after one step. -/
def pipeOf (s : State) : Option (List (Option Response)) :=
  match step s with
  | .next t => some t.pipe
  | .fault _ => none
  | .refused _ => none

/-- P4 period 2: `decs.b null` enters S[1] behind the response of period 1. -/
theorem test_pipeline_period2 :
    pipeOf (pipelined ⟨false, true, 0x10, 0, 0, false, 0⟩ [some ⟨0x7F00000000000000, 1, 0, false, 0, 0⟩, none]) =
      some [some ⟨0, 0, 0, true, 1, 1⟩, some ⟨0x7F00000000000000, 1, 0, false, 0, 0⟩] := by decide
/-- P4 period 3: the response of period 1 is shown and the empty request leaves S[1] invalid. -/
theorem test_pipeline_period3 :
    outputsOf (pipelined Inputs.idle [some ⟨0, 0, 0, true, 1, 1⟩, some ⟨0x7F00000000000000, 1, 0, false, 0, 0⟩]) =
      some ⟨true, ⟨0x7F00000000000000, 1, 0, false, 0, 0⟩⟩ := by decide
/-- P4 period 5: the reset edge discards the request of its period. -/
theorem test_reset_discards_request :
    pipeOf (pipelined ⟨true, true, 0x00, 0x01, 0, false, 0⟩ [none, none]) = some [none, none] := by decide
/-- 70_reset_and_hazards.md R170: with LATENCY = 0 there is no reset input. -/
theorem test_no_reset_input_when_combinational :
    response true ⟨true, true, 0x00, 0x7F, 0, false, 0⟩ = some ⟨0x7F00000000000000, 1, 0, false, 0, 0⟩ := by decide
/-- 10_state.md R29: with LATENCY = 0 the outputs follow the inputs while `req_valid` = 0. -/
theorem test_outputs_follow_inputs_without_request :
    outputsOf (combinational true ⟨false, false, 0x00, 0x7F, 0, false, 0⟩) =
      some ⟨false, ⟨0x7F00000000000000, 1, 0, false, 0, 0⟩⟩ := by decide
/-- 10_state.md R23: a port of LEN_BITS = 4 carries 4 bits. -/
theorem test_length_port_is_four_bits : portLen 4 17 = 1 ∧ presentLen 4 1000 = 15 := by decide

/-! ## Syntax (30_encoding.md R72, R73) -/

theorem test_parse_enc_decimal : parseLine "ENC.B -128".toList = some (.enc .byte (.dec (-128))) := by decide
theorem test_parse_enc_char : parseLine "enc.c 'a'".toList = some (.enc .char (.chr 97)) := by decide
theorem test_parse_enc_hex : parseLine "enc.s 0x080F".toList = some (.enc .short (.hex 0x080F)) := by decide
theorem test_parse_decs_list : parseLine "decs.s [0x7F, 0xFF]".toList = some (.decs .short [0x7F, 0xFF]) := by decide
theorem test_parse_decs_null : parseLine "decs.i null".toList = some (.decsNull .int) := by decide
theorem test_parse_decs_bout : parseLine "decs.i $bout".toList = some (.decsBout .int) := by decide
theorem test_parse_decf_counts_bytes :
    parseLine "decf.s 0x80, 0".toList = some (.decf .short [0x80, 0]) ∧ parseLine "decf.s 0x80".toList = none := by decide
theorem test_parse_cmd : parseLine ".cmd 0x3F".toList = some (.cmd 0x3F) := by decide
/-- R72's decimal range: 128 is no byte; -128 is `0x80`. -/
theorem test_decimal_range :
    (Operand.dec 128).pattern .byte = none ∧ (Operand.dec (-128)).pattern .byte = some 0x80 ∧
    (Operand.dec (-1)).pattern .char = none ∧ (Operand.dec 1).pattern .float = none := by decide

/-! ## Witnesses: states that meet each statement's hypotheses, at the bounds of each clause -/

/-- A request of word `c` on a reset machine of LATENCY `l`. -/
def asking (l : Nat) (c : Cmd) (present : Bool) (len : Nat) : State :=
  { State.resetWith ⟨l, 4, true⟩ with inp := ⟨false, true, c, 0, 0x7F800001AABBCCDD, present, len⟩ }

theorem witness_OpcodeMapDecodesAsListed : ⟨0x1A#8, .decsF, 1, 2, 2, 4⟩ ∈ opcodeMap ∧ decode true 0x1A#8 = .ok .decsF := by
  simp [opcodeMap, encRows, decsRows, decfRows]; decide
theorem witness_DecodeOfEncodeIsIdentity : Instr.wf false .decfS = true ∧ Instr.wf true .decfB = true := by decide
theorem witness_EncodeOfDecodeIsIdentity : decode false 0x1B#8 = .ok .decsD := by decide
theorem witness_StepRunsTheDecodedCommand :
    ((asking 0 0x12 true 4).params.latency = 0 ∧ decode true (asking 0 0x12 true 4).inp.cmd = .ok .decsI) ∧
    ((asking 2 0x12 true 4).inp.rst = false ∧ decode true (asking 2 0x12 true 4).inp.cmd = .ok .decsI) := by decide
theorem witness_PlacedWordRunsNext : Instr.wf State.reset.params.fixAll .decfF = true := by decide
theorem witness_ReservedWordRaisesIllegalCommand :
    (asking 2 0x3F true 4).inp.rst = false ∧ legal (asking 2 0x3F true 4).params.fixAll (asking 2 0x3F true 4).inp.cmd = false := by
  decide
theorem witness_EncodeFollowsByteOrderLaw : Instr.op .encF = .enc ∧ 3 < width .float ∧ width .float ≤ 4 := by decide
theorem witness_CheckedDecodeByte :
    (asking 0 0x10 false 1).inp.inPresent = false ∧
    ((asking 0 0x10 true 0).inp.inPresent = true ∧ (asking 0 0x10 true 0).reqLen < 1) ∧
    ((asking 0 0x10 true 1).inp.inPresent = true ∧ 1 ≤ (asking 0 0x10 true 1).reqLen) := by decide
theorem witness_CheckedDecodeShortAndChar :
    (asking 0 0x11 false 2).inp.inPresent = false ∧
    ((asking 0 0x15 true 1).inp.inPresent = true ∧ (asking 0 0x15 true 1).reqLen < 2) ∧
    ((asking 0 0x15 true 2).inp.inPresent = true ∧ 2 ≤ (asking 0 0x15 true 2).reqLen) := by decide
theorem witness_CheckedDecodeIntAndFloat :
    (asking 0 0x12 false 4).inp.inPresent = false ∧
    ((asking 0 0x1A true 3).inp.inPresent = true ∧ (asking 0 0x1A true 3).reqLen < 4) ∧
    ((asking 0 0x1A true 4).inp.inPresent = true ∧ 4 ≤ (asking 0 0x1A true 4).reqLen) := by decide
theorem witness_CheckedDecodeLongAndDouble :
    (asking 0 0x13 false 8).inp.inPresent = false ∧
    ((asking 0 0x1B true 7).inp.inPresent = true ∧ (asking 0 0x1B true 7).reqLen < 8) ∧
    ((asking 0 0x1B true 8).inp.inPresent = true ∧ 8 ≤ (asking 0 0x1B true 8).reqLen) := by decide
theorem witness_FixedDecodeByteAndFloat :
    State.reset.params.fixAll = true ∧ (State.resetWith ⟨0, 4, false⟩).params.fixAll = false := by decide
theorem witness_AssembleFormsAgree : widthOf 0b11#2 = 8 := by decide
theorem witness_DecodeShowsTheLanesNumber :
    (Instr.op .decsI = .decs ∧ (asking 0 0x12 true 4).inp.inPresent = true ∧ width .int ≤ (asking 0 0x12 true 4).reqLen) ∧
    (Instr.op .decfB = .decf ∧ Instr.wf (asking 0 0x20 false 0).params.fixAll .decfB = true) := by decide
/-- A sequence one byte short, one of exactly W bytes, and one longer than the lanes, each presented; the lanes past the
first two sequences hold other bytes. -/
theorem witness_SequenceDecodeMeetsItsContract :
    Presents { asking 0 0x11 true 1 with inp := ⟨false, true, 0x11, 0, 0x12AABBCCDDEEFF55, true, 1⟩ } [0x12] ∧
    Presents { asking 0 0x11 true 2 with inp := ⟨false, true, 0x11, 0, 0x1234BBCCDDEEFF55, true, 2⟩ } [0x12, 0x34] ∧
    Presents { asking 0 0x11 true 15 with inp := ⟨false, true, 0x11, 0, 0x0101010101010101, true, 15⟩ }
      (List.replicate 20 0x01) ∧
    ([0x12] : List Byte).length < width .short ∧ width .short ≤ ([0x12, 0x34] : List Byte).length ∧
    (asking 0 0x11 true 1).params.WF ∧ (asking 0 0x11 false 2).inp.inPresent = false ∧
    (asking 0 0x11 true 1).reqLen < width .short := by unfold Presents; decide
/-- What ENC.I makes of 0x12345678, presented with its length 4, to decode as int and as short. -/
theorem witness_RoundTripIsBitExact :
    enc (PrimType.sz .int) 0x12345678 = encodedAs 0x1234567800000000 4 ∧
    ∃ u : State, u.inp.bin = 0x1234567800000000 ∧ u.inp.inPresent = true ∧ u.reqLen = width .int :=
  ⟨by decide, { asking 0 0x12 true 4 with inp := ⟨false, true, 0x12, 0, 0x1234567800000000, true, 4⟩ }, by decide⟩
theorem witness_NarrowerDecodeSeesTopBytes :
    width .short < width .int ∧
    ∃ u : State, u.inp.bin = 0x1234567800000000 ∧ u.inp.inPresent = true ∧ width .short ≤ u.reqLen :=
  ⟨by decide, { asking 0 0x11 true 4 with inp := ⟨false, true, 0x11, 0, 0x1234567800000000, true, 4⟩ }, by decide⟩
theorem witness_FixedDecodeAgreesWithChecked :
    Instr.wf (asking 0 0x2A true 4).params.fixAll (.ofOpType .decf .float) = true ∧
    (asking 0 0x2A true 4).inp.inPresent = true ∧ width .float ≤ (asking 0 0x2A true 4).reqLen := by decide
/-- Values and lane buses that differ only where an int command does not read. -/
theorem witness_CommandsIgnoreUnreadPorts :
    (0xFFFFFFFF00000000 : Word).extractLsb' 0 (bits .int) = (asking 0 0x02 false 0).inp.valIn.extractLsb' 0 (bits .int) ∧
    (∀ k, k < width .int → lane 0x7F80000100000000 k = lane (asking 0 0x12 true 4).inp.bin k) ∧
    (0x7F80000100000000 : Word) ≠ (asking 0 0x12 true 4).inp.bin ∧
    Instr.op .encI = .enc ∧ Instr.op .decsI = .decs ∧ Instr.op .decfI = .decf := by decide
theorem witness_ErrorCausePriority :
    legal true (asking 0 0x50 false 0).inp.cmd = false ∧
    (legal true (asking 0 0x12 false 8).inp.cmd = true ∧ fieldOp (asking 0 0x12 false 8).inp.cmd = 0b01#2 ∧
      (asking 0 0x12 false 8).inp.inPresent = false) ∧
    ((asking 0 0x12 true 3).inp.inPresent = true ∧
      (asking 0 0x12 true 3).reqLen < widthOf (fieldSz (asking 0 0x12 true 3).inp.cmd)) ∧
    ((asking 0 0x12 true 4).inp.inPresent = true ∧
      widthOf (fieldSz (asking 0 0x12 true 4).inp.cmd) ≤ (asking 0 0x12 true 4).reqLen) ∧
    (legal true (asking 0 0x22 false 0).inp.cmd = true ∧ fieldOp (asking 0 0x22 false 0).inp.cmd ≠ 0b01#2) := by decide
theorem witness_EveryResponseIsCoherent :
    (asking 0 0x3F true 4).params.latency = 0 ∧ (asking 3 0x3F true 4).inp.rst = false := by decide
theorem witness_StepRespondsWithCodec :
    (asking 0 0x13 true 8).params.latency = 0 ∧ (asking 3 0x13 true 8).inp.rst = false := by decide
theorem witness_CombinationalOutputs : (asking 0 0x13 true 8).params.latency = 0 := by decide
theorem witness_PipelineEdgeShiftsStages :
    (asking 2 0x12 true 4).WF ∧ 0 < (asking 2 0x12 true 4).params.latency ∧ (asking 2 0x12 true 4).inp.rst = false ∧
    0 + 1 < (asking 2 0x12 true 4).params.latency ∧ (asking 2 0x12 true 4).resetDone = true ∧
    (asking 2 0x12 true 4).pipe[2 - 1]? = some none := by decide
/-- A machine of LATENCY 2 in a period with `rst` = 1 and both stages full. -/
def resettingFull : State :=
  pipelined ⟨true, true, 0x00, 1, 0, false, 0⟩ [some ⟨0, 0, 1, false, 0, 0⟩, some ⟨0, 0, 2, false, 0, 0⟩]
theorem resettingFull_sound : resettingFull.Sound := by
  refine ⟨by decide, fun _ q hq r hr => ?_⟩
  have h : q = some ⟨0, 0, 1, false, 0, 0⟩ ∨ q = some ⟨0, 0, 2, false, 0, 0⟩ := by
    simpa [resettingFull, pipelined] using hq
  rcases h with rfl | rfl <;> (cases hr; decide)
theorem witness_ResetEdgeClearsThePipeline :
    0 < resettingFull.params.latency ∧ resettingFull.inp.rst = true := by decide
theorem witness_NothingShownRightAfterReset :
    0 < resettingFull.params.latency ∧ resettingFull.inp.rst = true ∧ 1 ≤ 2 ∧ 2 ≤ resettingFull.params.latency := by
  decide
theorem witness_UnspecifiedOutputsAreDrawn :
    (0 < (State.powerUp ⟨2, 4, true⟩).params.latency ∧ (State.powerUp ⟨2, 4, true⟩).resetDone = false) ∧
    ((asking 2 0x12 true 4).resetDone = true ∧ (asking 2 0x12 true 4).pipe.getLast? = some none) :=
  ⟨⟨by decide, rfl⟩, by decide⟩
theorem witness_PowerCycleNeedsReset : resettingFull.WF := by decide
theorem witness_CommandFrame :
    (asking 0 0x12 true 4).params.latency = 0 ∧
    (resettingFull.resetDone = true ∧ resettingFull.lastStage ≠ none) ∧
    (0 < (pipelined Inputs.idle [none, none]).params.latency ∧
      (pipelined Inputs.idle [none, none]).inp.reqValid = false) := by decide
theorem witness_ResetStateIsSound : (⟨3, 4, false⟩ : Params).WF := by decide
theorem witness_StepKeepsWellFormed : resettingFull.WF ∧ ∃ t, step resettingFull = .next t :=
  ⟨by decide, _, step_eq _⟩
theorem witness_StepKeepsSound : resettingFull.Sound ∧ ∃ t, step resettingFull = .next t :=
  ⟨resettingFull_sound, _, step_eq _⟩
theorem witness_ShownResponsesAreCoherent :
    resettingFull.Sound ∧ resettingFull.resetDone = true ∧
    ∃ t, step resettingFull = .next t ∧ t.out.rspValid = true :=
  ⟨resettingFull_sound, rfl, _, step_eq _, by decide⟩
/-- LATENCY 2: the request of period 1, after the reset edge of period 0, with no reset until it is shown. -/
def resetThenAsk : State :=
  { State.powerUp ⟨2, 4, true⟩ with
    inp := ⟨true, false, 0, 0, 0, false, 0⟩, host := [⟨false, true, 0x12, 0, 0x7FFFFFFF00000000, true, 4⟩] }
theorem resetThenAsk_carried : CarriedThrough resetThenAsk 1 := by
  intro _
  refine ⟨fun j h1 h2 => ?_, .inr ⟨0, by decide, by decide⟩⟩
  have : j < 3 := h2
  interval_cases j <;> decide
theorem resetThenAsk_wf : resetThenAsk.WF := ⟨by decide, powerCycle_pipe_length _, by decide, by decide⟩
theorem witness_ResponseAppearsAfterLatency :
    resetThenAsk.WF ∧ CarriedThrough resetThenAsk 1 ∧ (resetThenAsk.inputsAt 1).reqValid = true :=
  ⟨resetThenAsk_wf, resetThenAsk_carried, by decide⟩
/-- The same request in period 0 of a machine whose pipeline is full. -/
def fullThenAsk : State :=
  pipelined ⟨false, true, 0x12, 0, 0x7FFFFFFF00000000, true, 4⟩
    [some ⟨0, 0, 1, false, 0, 0⟩, some ⟨0, 0, 2, false, 0, 0⟩]
theorem fullThenAsk_carried : CarriedThrough fullThenAsk 0 := by
  intro _
  refine ⟨fun j h1 h2 => ?_, .inl rfl⟩
  have : j < 2 := by simpa [fullThenAsk, pipelined] using h2
  interval_cases j <;> decide
theorem witness_ResponsesAreIndependent :
    resetThenAsk.WF ∧ fullThenAsk.WF ∧ resetThenAsk.params = fullThenAsk.params ∧ CarriedThrough resetThenAsk 1 ∧
    CarriedThrough fullThenAsk 0 ∧ (resetThenAsk.inputsAt 1).reqValid = true ∧
    resetThenAsk.inputsAt 1 = fullThenAsk.inputsAt 0 :=
  ⟨resetThenAsk_wf, by decide, rfl, resetThenAsk_carried, fullThenAsk_carried, by decide, by decide⟩
theorem witness_RoundTripThroughThePipeline :
    State.reset.WF ∧ State.reset.params.latency = 0 ∧ fullThenAsk.WF ∧ fullThenAsk.resetDone = true := by decide
/-- The ranges of R72 at their ends: 0xFF and 0x100, -128, 127, -129 and 128 for byte, 0, 65535, -1 and 65536 for char. -/
theorem witness_LinesDriveTheirPorts :
    (0xFF < 2 ^ bits .byte ∧ ¬ 0x100 < 2 ^ bits .byte) ∧
    (PrimType.kind .byte = .sint ∧ -(2 ^ (bits .byte - 1) : Int) ≤ -128 ∧ (127 : Int) < 2 ^ (bits .byte - 1) ∧
      (-129 : Int) < -(2 ^ (bits .byte - 1) : Int) ∧ (2 ^ (bits .byte - 1) : Int) ≤ 128) ∧
    ((0 : Int) ≤ 0 ∧ (65535 : Int) ≤ 65535 ∧ (-1 : Int) < 0 ∧ (65535 : Int) < 65536) ∧
    PrimType.kind .float = .fp ∧
    ([0x80] : List Byte).length ≠ width .short ∧ ([0x80, 0x00] : List Byte).length = width .short ∧ 7 < 8 := by decide

end Sys2Proof.Tests
end

