-- ==== Sys2Proof/Proofs/Scope.lean ====
section
/-! SUPPORT. The scope family: the frame of a command, the shape of the state, the type widths and the reset state. -/

namespace Sys2Proof.Machine

/-! ## What responding does to the pipeline and the draws -/

/-- With LATENCY = 0 there is no stage to shift into (R27). -/
theorem shifted_of_latency_zero (s : State) (r : Response) (h : s.params.latency = 0) : s.shifted r = [] := by
  simp [State.shifted, h]

/-- Behind the new stage stand the old stages, the last one gone (R28). -/
theorem shifted_tail (s : State) (r : Response) : (s.shifted r).tail = s.pipe.take (s.params.latency - 1) := by
  cases h : s.params.latency <;> simp [State.shifted, h]

/-- A period with no request puts an invalid stage in front (R28). -/
theorem newStage_of_no_request (s : State) (r : Response) (h : s.inp.reqValid = false) : s.newStage r = none := by
  simp [State.newStage, h]

/-- With LATENCY = 0 every output follows the inputs, so nothing is drawn (R27). -/
theorem drawsAfter_of_latency_zero (s : State) (h : s.params.latency = 0) : s.drawsAfter = s.draws := by
  simp [State.drawsAfter, State.clocked, h]

/-- A period that shows the response of a valid last stage draws nothing (R28). -/
theorem drawsAfter_of_response_shown (s : State) (hd : s.resetDone = true) (hl : s.lastStage ≠ none) :
    s.drawsAfter = s.draws := by
  simp [State.drawsAfter, hd, Option.isSome_iff_ne_none.mpr hl]

/-! ## The shape of the state -/

theorem respond_wf {s : State} (r : Response) (h : s.WF) : (s.respond r).WF := by
  have ⟨_, hlen, _⟩ := h
  exact closePeriod_wf h (shifted_length s r hlen)

theorem resetEdge_wf {s : State} (h : s.WF) : s.resetEdge.WF :=
  closePeriod_wf h List.length_replicate

/-- Every step keeps the state well-formed, whichever of its two ways it goes. -/
theorem step_wf {s t : State} (h : s.WF) (hst : step s = .next t) : t.WF := by
  obtain ⟨-, rfl⟩ | ⟨-, r, -, rfl⟩ := step_cases hst
  · exact resetEdge_wf h
  · exact respond_wf r h

/-- No step changes the parameters (R7). -/
theorem step_params {s t : State} (hst : step s = .next t) : t.params = s.params := by
  obtain ⟨-, rfl⟩ | ⟨-, r, -, rfl⟩ := step_cases hst
  · exact resetEdge_params s
  · exact respond_params s r

/-! ## The reset state -/

/-- Every stage is invalid right after reset (R171). -/
theorem resetWith_stage_invalid (p : Params) : ∀ q ∈ (State.resetWith p).pipe, q = none :=
  fun _ hq => List.eq_of_mem_replicate hq

theorem resetWith_wf {p : Params} (h : p.WF) : (State.resetWith p).WF :=
  ⟨h, List.length_replicate, Nat.two_pow_pos _, List.forall_mem_nil _⟩

/-- An empty pipeline holds no response that could be incoherent. -/
theorem resetWith_pipeCoherent (p : Params) : (State.resetWith p).PipeCoherent := by
  intro _ q hq r hr
  rw [resetWith_stage_invalid p q hq] at hr
  cases hr

theorem resetWith_sound {p : Params} (h : p.WF) : (State.resetWith p).Sound :=
  ⟨resetWith_wf h, resetWith_pipeCoherent p⟩

end Sys2Proof.Machine

namespace Sys2Proof.Statements
open Sys2Proof.Machine

/-- Settles O39: every command is one `respond`, so the frame is that of the shift and of the draw counter. -/
theorem commandFrame : Obligations.CommandFrame := by
  intro i s
  refine ⟨_, exec_eq_respond i s, rfl, rfl, rfl, rfl, shifted_tail s _, fun h0 => ?_, fun hd hl => ?_,
    fun hpos hreq => ?_⟩
  · exact ⟨shifted_of_latency_zero s _ h0, drawsAfter_of_latency_zero s h0⟩
  · exact drawsAfter_of_response_shown s hd hl
  · rw [respond_pipe, List.head?_eq_getElem?, shifted_head s _ hpos, newStage_of_no_request s _ hreq]

/-- Settles O42, from the two ways a step can go. -/
theorem stepKeepsWellFormed : Obligations.StepKeepsWellFormed :=
  fun _ _ hwf hst => ⟨step_wf hwf hst, step_params hst⟩

/-- Settles O6: the width formulas are the definitions, and the seven types' SZ codes give the table of R6. -/
theorem typeWidthsAsTabled : Obligations.TypeWidthsAsTabled :=
  ⟨fun _ => ⟨rfl, rfl⟩, by decide⟩

/-- Settles O41: at reset the pipeline is empty of responses, for every value of the parameters. -/
theorem resetStateIsSound : Obligations.ResetStateIsSound :=
  ⟨rfl, fun p hp => ⟨resetWith_sound hp, resetWith_params p, resetWith_stage_invalid p⟩⟩

end Sys2Proof.Statements
end

section
/-! SUPPORT. The state family: how a response travels from its request to the outputs, the soundness of the state, the
round trip through the machine, and the ports each line drives. -/

namespace Sys2Proof.Machine

/-! ## The two ways a step can go -/

theorem resetting_eq_false_iff (s : State) :
    s.resetting = false ↔ s.params.latency = 0 ∨ s.inp.rst = false := by
  rw [← Bool.not_eq_true, resetting_iff, not_and_or, Nat.pos_iff_ne_zero, not_not, Bool.not_eq_true]

/-- A clocked machine resets exactly when `rst` = 1 (R170). -/
theorem resetting_of_clocked {s : State} (h : 0 < s.params.latency) : s.resetting = s.inp.rst := by
  simp [State.resetting, (clocked_iff s).mpr h]

/-- Outside a reset edge a step responds with `codec` of the period's inputs (R70). -/
theorem step_of_not_resetting {s : State} (h : s.resetting = false) :
    step s = .next (s.respond (codec s.params s.inp)) := by
  rw [step_eq, h, codec_eq_responseOfWord]
  rfl

/-- After a step, the inputs `k` periods from now are those that were `k + 1` periods away. -/
theorem inputsAt_of_step {s t : State} (hst : step s = .next t) (k : Nat) : t.inputsAt k = s.inputsAt (k + 1) := by
  obtain ⟨-, rfl⟩ | ⟨-, r, -, rfl⟩ := step_cases hst <;> exact inputsAt_closePeriod s _ _ _ k

/-- The reset mark after a step: it was there before, or the step was a reset edge (R171, R174). -/
theorem resetDone_of_step {s t : State} (hst : step s = .next t) : t.resetDone = (s.resetDone || s.resetting) := by
  obtain ⟨hr, rfl⟩ | ⟨hr, r, -, rfl⟩ := step_cases hst <;> simp [hr]

theorem draws_of_step {s t : State} (hst : step s = .next t) : t.draws = s.drawsAfter := by
  obtain ⟨-, rfl⟩ | ⟨-, r, -, rfl⟩ := step_cases hst <;> rfl

/-- What every step keeps, every run keeps. -/
theorem run_keeps {P : State → Prop} (hP : ∀ {s t : State}, P s → step s = .next t → P t) (k : Nat) :
    ∀ {s t : State}, P s → run k s = .next t → P t := by
  induction k with
  | zero =>
    intro s t hs hrun
    cases hrun
    exact hs
  | succ k ih =>
    intro s t hs hrun
    rw [run_succ s _ k (step_eq s)] at hrun
    exact ih (hP hs (step_eq s)) hrun

/-! ## The outputs of a period -/

/-- The outputs show a stage: `rsp_valid` is its valid bit and, if it is valid, the other ports are its response
(R28). -/
def Outputs.Shows (o : Outputs) (q : Option Response) : Prop :=
  o.rspValid = q.isSome ∧ ∀ r, q = some r → o.rsp = r

/-- With LATENCY = 0 the outputs are the response to the period's inputs (R27). -/
theorem outputs_of_latency_zero {s : State} (r : Response) (h : s.params.latency = 0) :
    s.outputs r = ⟨s.inp.reqValid, r⟩ := by
  simp [State.outputs, State.clocked, h]

/-- With LATENCY > 0 the outputs of a period do not depend on its inputs (R28). -/
theorem outputs_of_clocked {s : State} (r : Response) (h : 0 < s.params.latency) :
    s.outputs r = s.clockedOutputs := by
  simp [State.outputs, (clocked_iff s).mpr h]

/-- With LATENCY > 0 a period shows the same outputs whether or not a reset edge ends it. -/
theorem out_of_step {s t : State} (hl : 0 < s.params.latency) (hst : step s = .next t) : t.out = s.clockedOutputs := by
  obtain ⟨-, rfl⟩ | ⟨-, r, -, rfl⟩ := step_cases hst
  · exact resetEdge_out s
  · exact outputs_of_clocked r hl

theorem clockedOutputs_of_not_resetDone {s : State} (h : s.resetDone = false) :
    s.clockedOutputs = ⟨Config.freeRspValid s.draws, freeResponse s.draws⟩ := by
  simp [State.clockedOutputs, h]

theorem clockedOutputs_of_valid {s : State} {r : Response} (hd : s.resetDone = true) (h : s.lastStage = some r) :
    s.clockedOutputs = ⟨true, r⟩ := by
  simp [State.clockedOutputs, hd, h]

theorem clockedOutputs_of_invalid {s : State} (hd : s.resetDone = true) (h : s.lastStage = none) :
    s.clockedOutputs = ⟨false, freeResponse s.draws⟩ := by
  simp [State.clockedOutputs, hd, h]

/-- Once reset is applied, the outputs show S[L] (R28). -/
theorem clockedOutputs_shows_lastStage {s : State} (hd : s.resetDone = true) : s.clockedOutputs.Shows s.lastStage := by
  cases h : s.lastStage with
  | none => exact ⟨by rw [clockedOutputs_of_invalid hd h]; rfl, by simp⟩
  | some r =>
    rw [clockedOutputs_of_valid hd h]
    exact ⟨rfl, fun _ hr => Option.some.inj hr⟩

theorem lastStage_of_getElem? {s : State} {q : Option Response} (hlen : s.pipe.length = s.params.latency)
    (hq : s.pipe[s.params.latency - 1]? = some q) : s.lastStage = q := by
  rw [lastStage_eq s hlen, hq]
  rfl

theorem lastStage_of_getLast? {s : State} {q : Option Response} (h : s.pipe.getLast? = some q) : s.lastStage = q := by
  simp [State.lastStage, h]

/-- S[L] is one of the stages. -/
theorem mem_pipe_of_lastStage {s : State} {r : Response} (h : s.lastStage = some r) : some r ∈ s.pipe :=
  List.mem_of_getLast? (Option.join_eq_some_iff.mp h)

/-- An unspecified value is drawn where no valid stage is shown (R29, R174). -/
theorem drawsAfter_of_unspecified {s : State} (hl : 0 < s.params.latency)
    (h : s.resetDone = false ∨ s.lastStage = none) : s.drawsAfter = s.draws + 1 := by
  obtain h | h := h <;> simp [State.drawsAfter, (clocked_iff s).mpr hl, h]

/-! ## Soundness -/

theorem newStage_eq_some_iff {s : State} {r r' : Response} :
    s.newStage r = some r' ↔ s.inp.reqValid = true ∧ r = r' := by
  cases h : s.inp.reqValid <;> simp [State.newStage, h]

/-- Responding with a coherent response keeps the state sound. -/
theorem respond_sound {s : State} {r : Response} (hs : s.Sound) (hr : r.Coherent) : (s.respond r).Sound := by
  obtain ⟨hwf, hpipe⟩ := hs
  refine ⟨respond_wf r hwf, fun hd q hq r' hr' => ?_⟩
  obtain rfl | hold := mem_shifted hq
  · obtain ⟨-, rfl⟩ := newStage_eq_some_iff.mp hr'
    exact hr
  · exact hpipe hd q hold r' hr'

/-- A reset edge leaves no response that could be incoherent (R171). -/
theorem resetEdge_sound {s : State} (hwf : s.WF) : s.resetEdge.Sound := by
  refine ⟨resetEdge_wf hwf, fun _ q hq r hr => ?_⟩
  rw [List.eq_of_mem_replicate hq] at hr
  cases hr

theorem step_sound {s t : State} (hs : s.Sound) (hst : step s = .next t) : t.Sound := by
  obtain ⟨-, rfl⟩ | ⟨-, r, hr, rfl⟩ := step_cases hst
  · exact resetEdge_sound hs.left
  · exact respond_sound hs hr

/-- Once reset is applied, what a clocked machine shows as valid is the coherent response of its last stage. -/
theorem clockedOutputs_coherent {s : State} (hs : s.PipeCoherent) (hd : s.resetDone = true)
    (hv : s.clockedOutputs.rspValid = true) : s.clockedOutputs.rsp.Coherent := by
  obtain ⟨hvalid, hrsp⟩ := clockedOutputs_shows_lastStage hd
  obtain ⟨r, hr⟩ := Option.isSome_iff_exists.mp (hvalid.symm.trans hv)
  rw [hrsp r hr]
  exact hs hd (some r) (mem_pipe_of_lastStage hr) r rfl

end Sys2Proof.Machine

namespace Sys2Proof.Statements
open Sys2Proof.Machine

/-- Settles O43, from the two ways a step can go: a reset edge empties the pipeline, a response is coherent. -/
theorem stepKeepsSound : Obligations.StepKeepsSound :=
  fun _ _ hs hst => step_sound hs hst

/-- Settles O44: with LATENCY = 0 the period's own response is shown, otherwise that of the last stage. -/
theorem shownResponsesAreCoherent : Obligations.ShownResponsesAreCoherent := by
  intro s t hs huse hst hv
  obtain hl | hl := Nat.eq_zero_or_pos s.params.latency
  · obtain ⟨hreset, -⟩ | ⟨-, r, hr, rfl⟩ := step_cases hst
    · exact absurd ((resetting_iff s).mp hreset).left (by omega)
    · rw [respond_out, outputs_of_latency_zero r hl]
      exact hr
  · have hd : s.resetDone = true := huse.resolve_left (by omega)
    rw [out_of_step hl hst] at hv ⊢
    exact clockedOutputs_coherent hs.right hd hv

/-- Settles O34: a period without reset responds with `codec`, and responding shifts the stages. -/
theorem pipelineEdgeShiftsStages : Obligations.PipelineEdgeShiftsStages := by
  intro s hwf hl hrst
  have ⟨_, hlen, _⟩ := hwf
  have hst := step_of_not_resetting ((resetting_eq_false_iff s).mpr (.inr hrst))
  refine ⟨_, hst, shifted_length s _ hlen, shifted_head s _ hl, shifted_succ s _, fun hd q hq => ?_⟩
  rw [out_of_step hl hst, ← lastStage_of_getElem? hlen hq]
  exact clockedOutputs_shows_lastStage hd

/-- Settles O33: without a clock no edge is a reset edge, and the response is shown at once. -/
theorem combinationalOutputs : Obligations.CombinationalOutputs := by
  intro s hl
  exact ⟨_, step_of_not_resetting ((resetting_eq_false_iff s).mpr (.inl hl)), outputs_of_latency_zero _ hl,
    shifted_of_latency_zero s _ hl, rfl, drawsAfter_of_latency_zero s hl⟩

/-- Settles O37: what `clockedOutputs` shows, and draws, without a reset edge or without a valid last stage. -/
theorem unspecifiedOutputsAreDrawn : Obligations.UnspecifiedOutputsAreDrawn := by
  intro s hl
  have hst := step_eq s
  refine ⟨_, hst, fun hd => ⟨?_, ?_, ?_⟩, fun hd hq => ⟨?_, ?_⟩⟩
  · rw [out_of_step hl hst, clockedOutputs_of_not_resetDone hd]
  · rw [draws_of_step hst, drawsAfter_of_unspecified hl (.inl hd)]
  · rw [resetDone_of_step hst, hd, resetting_of_clocked hl, Bool.false_or]
  · rw [out_of_step hl hst, clockedOutputs_of_invalid hd (lastStage_of_getLast? hq)]
  · rw [draws_of_step hst, drawsAfter_of_unspecified hl (.inr (lastStage_of_getLast? hq))]

end Sys2Proof.Statements

namespace Sys2Proof.Laws.WordRoundTrip

/-- The per-instruction family holds of every command. -/
theorem statement_holds (i : Instr) : Statement i := by
  cases i with
  | encB => exact encB
  | encS => exact encS
  | encC => exact encC
  | encI => exact encI
  | encL => exact encL
  | encF => exact encF
  | encD => exact encD
  | decsB => exact decsB
  | decsS => exact decsS
  | decsC => exact decsC
  | decsI => exact decsI
  | decsL => exact decsL
  | decsF => exact decsF
  | decsD => exact decsD
  | decfB => exact decfB
  | decfS => exact decfS
  | decfC => exact decfC
  | decfI => exact decfI
  | decfL => exact decfL
  | decfF => exact decfF
  | decfD => exact decfD

end Sys2Proof.Laws.WordRoundTrip

namespace Sys2Proof.Machine

/-! ## The way of a response through the pipeline -/

/-- A stage that stands `m` places before S[L] is shown `m` periods from now, if no reset edge comes before (R28,
R173). -/
theorem run_shows_stage (m : Nat) : ∀ {s : State} {q : Option Response}, s.WF → s.resetDone = true →
    m < s.params.latency → s.pipe[s.params.latency - 1 - m]? = some q → (∀ j < m, (s.inputsAt j).rst = false) →
    ∃ t, run (m + 1) s = .next t ∧ t.out.Shows q := by
  induction m with
  | zero =>
    intro s q hwf hd hl hq _
    have ⟨_, hlen, _⟩ := hwf
    refine ⟨_, run_succ s _ 0 (step_eq s), ?_⟩
    rw [out_of_step hl (step_eq s), ← lastStage_of_getElem? hlen hq]
    exact clockedOutputs_shows_lastStage hd
  | succ m ih =>
    intro s q hwf hd hm hq hrst
    have hst := step_of_not_resetting ((resetting_eq_false_iff s).mpr (.inr (hrst 0 (by omega))))
    rw [run_succ s _ _ hst]
    refine ih (step_wf hwf hst) hd (show m < s.params.latency by omega) ?_ fun j hj => ?_
    · have hpos : s.params.latency - 1 - m = s.params.latency - 1 - (m + 1) + 1 := by omega
      rw [respond_params, respond_pipe, hpos, shifted_succ s _ _ (by omega), hq]
    · rw [inputsAt_of_step hst]
      exact hrst (j + 1) (by omega)

/-- A request that is carried through is answered by `codec` of its inputs LATENCY periods later (R27, R28, R176). -/
theorem run_shows_request {s : State} (hwf : s.WF) (hc : Statements.CarriedThrough s 0) :
    ∃ t, run (s.params.latency + 1) s = .next t ∧ t.out.rspValid = s.inp.reqValid ∧
      (s.inp.reqValid = true → t.out.rsp = codec s.params s.inp) := by
  obtain hl | hl := Nat.eq_zero_or_pos s.params.latency
  · have hst := step_of_not_resetting ((resetting_eq_false_iff s).mpr (.inl hl))
    refine ⟨_, by rw [hl]; exact run_succ s _ 0 hst, ?_⟩
    rw [respond_out, outputs_of_latency_zero _ hl]
    exact ⟨rfl, fun _ => rfl⟩
  · obtain ⟨hrst, hdone⟩ := hc hl
    have hd : s.resetDone = true := hdone.resolve_right fun ⟨j, hj, _⟩ => Nat.not_lt_zero j hj
    have hst := step_of_not_resetting ((resetting_eq_false_iff s).mpr (.inr (hrst 0 le_rfl (by omega))))
    obtain ⟨t, hrun, hvalid, hrsp⟩ := run_shows_stage (s.params.latency - 1) (step_wf hwf hst) hd
      (show s.params.latency - 1 < s.params.latency by omega)
      (by rw [respond_params, Nat.sub_self]; exact shifted_head s _ hl)
      fun j hj => by rw [inputsAt_of_step hst]; exact hrst (j + 1) (by omega) (by omega)
    refine ⟨t, ?_, ?_, fun hv => hrsp _ (newStage_eq_some_iff.mpr ⟨hv, rfl⟩)⟩
    · rw [run_succ s _ _ hst, ← hrun, Nat.sub_add_cancel hl]
    · rw [hvalid]
      cases h : s.inp.reqValid <;> simp [State.newStage, h]

/-- A request that will be carried through still will be after a step. -/
theorem carriedThrough_of_step {s t : State} {k : Nat} (hst : step s = .next t)
    (hc : Statements.CarriedThrough s (k + 1)) : Statements.CarriedThrough t k := by
  intro hl
  rw [step_params hst] at hl ⊢
  obtain ⟨hrst, hdone⟩ := hc hl
  refine ⟨fun j h1 h2 => ?_, ?_⟩
  · rw [inputsAt_of_step hst]
    exact hrst (j + 1) (by omega) (by omega)
  · rw [resetDone_of_step hst, resetting_of_clocked hl]
    obtain hd | ⟨j, hj, hr⟩ := hdone
    · exact .inl (by rw [hd, Bool.true_or])
    · cases j with
      | zero => exact .inl (by rw [← inputsAt_zero, hr, Bool.or_true])
      | succ j => exact .inr ⟨j, by omega, by rw [inputsAt_of_step hst, hr]⟩

theorem Outputs.eq_of_ports {a b : Outputs} (hv : a.rspValid = b.rspValid) (hr : a.rsp = b.rsp) : a = b := by
  cases a
  cases b
  cases hv
  cases hr
  rfl

/-- `codec` reads the five request inputs and the parameters alone (R30). -/
theorem codec_congr {p : Params} {a b : Inputs} (hcmd : a.cmd = b.cmd) (hval : a.valIn = b.valIn)
    (hbin : a.bin = b.bin) (hpres : a.inPresent = b.inPresent) (hlen : a.inLen = b.inLen) :
    codec p a = codec p b := by
  simp [codec, hcmd, hval, hbin, hpres, hlen]

/-! ## Which ports and bits a command reads -/

/-- What a response does to the state does not depend on the operand ports. -/
theorem respond_of_operands (s : State) (v b : Word) (p : Bool) (n : Nat) (r : Response) :
    ({ s with inp := { s.inp with valIn := v, bin := b, inPresent := p, inLen := n } } : State).respond r =
      s.respond r := rfl

/-- A command that gives other operands the same response steps alike. -/
theorem exec_of_operands {i : Instr} {s : State} {v b : Word} {p : Bool} {n : Nat}
    (h : responseOf s.params { s.inp with valIn := v, bin := b, inPresent := p, inLen := n } i =
      responseOf s.params s.inp i) :
    exec i { s with inp := { s.inp with valIn := v, bin := b, inPresent := p, inLen := n } } = exec i s := by
  rw [exec_eq_respond, exec_eq_respond, respond_of_operands, h]

/-- The bit of `bin` on lane k at position j (R22). -/
theorem lane_getLsbD (bus : Word) (k j : Nat) (hj : j < 8) : (lane bus k).getLsbD j = bus.getLsbD (56 - 8 * k + j) := by
  simp [lane, hj]

/-- The assembled value depends on the first W lanes alone (R46, R69). -/
theorem assemble_congr {sz : BitVec 2} {a b : Word} (h : ∀ k < widthOf sz, lane a k = lane b k) :
    assemble sz a = assemble sz b := by
  have hbits : bitsOf sz = 8 * widthOf sz := rfl
  have hw := widthOf_le sz
  ext j hj
  have hpos : 64 - bitsOf sz + j = 56 - 8 * (widthOf sz - 1 - j / 8) + j % 8 := by omega
  have hmod : j % 8 < 8 := Nat.mod_lt j (by decide)
  rw [← BitVec.getLsbD_eq_getElem, ← BitVec.getLsbD_eq_getElem, assemble_getLsbD sz a j hj,
    assemble_getLsbD sz b j hj, hpos, ← lane_getLsbD a _ _ hmod, h _ (by omega), lane_getLsbD b _ _ hmod]

/-- An encode depends on the low n bits of the value alone (R68). -/
theorem enc_congr {sz : BitVec 2} {a b : Word} (h : a.extractLsb' 0 (bitsOf sz) = b.extractLsb' 0 (bitsOf sz)) :
    enc sz a = enc sz b := by
  rw [enc_eq, enc_eq, encodeOperand, encodeOperand, h]

theorem decs_congr {sz : BitVec 2} {a b : Word} (k : Kind) (p : Bool) (n : Nat) (h : assemble sz a = assemble sz b) :
    decs sz k a p n = decs sz k b p n := by
  rw [decs, decs, h]

theorem decf_congr {sz : BitVec 2} {a b : Word} (k : Kind) (h : assemble sz a = assemble sz b) :
    decf sz k a = decf sz k b := by
  rw [decf, decf, h]

/-! ## The word of a command -/

/-- The word of a command that exists decodes to it. -/
theorem decode_encode {f : Bool} {i : Instr} (h : i.wf f = true) : decode f (encode i) = .ok i :=
  Laws.WordRoundTrip.statement_holds i f h

/-- With FIX_ALL = 1 every command exists (R122). -/
theorem wf_of_fixAll (i : Instr) : i.wf true = true := by cases i <;> rfl

/-- An encode exists at every value of FIX_ALL (R122). -/
theorem ofOpType_enc_wf (f : Bool) (t : PrimType) : (Instr.ofOpType .enc t).wf f = true := by cases t <;> rfl

/-- A checked decode exists at every value of FIX_ALL (R122). -/
theorem ofOpType_decs_wf (f : Bool) (t : PrimType) : (Instr.ofOpType .decs t).wf f = true := by cases t <;> rfl

/-- Outside a reset edge a step runs the command of its word (R53, R70). -/
theorem step_of_command {s : State} {i : Instr} (h : s.resetting = false) (hc : s.command = .ok i) :
    step s = exec i s := by
  rw [step_eq, h, hc, exec_eq_respond]
  rfl

/-- Placing a command's word presents that command, without reset (R60, log 11). -/
theorem withFetchWord_encode (s : State) (i : Instr) :
    s.withFetchWord 8 (encode i).toNat = { s with inp := s.inp.withCommand (encode i) } := by
  rw [State.withFetchWord, Nat.mod_eq_of_lt (encode i).isLt, BitVec.ofNat_toNat, BitVec.setWidth_eq]

/-- With FIX_ALL = 1 every command's word is in the table (R65). -/
theorem decodeTableWord_encode (i : Instr) : decodeTableWord 8 (encode i).toNat = some i := by
  have hdec : decode Params.default.fixAll (encode i) = .ok i := decode_encode (wf_of_fixAll i)
  rw [decodeTableWord, if_pos ⟨rfl, (encode i).isLt⟩, BitVec.ofNat_toNat, BitVec.setWidth_eq, hdec]
  rfl

/-! ## The round trip -/

/-- `codec` of a request of a command that exists is that command's response. -/
theorem codec_of_encode {p : Params} {inp : Inputs} {i : Instr} (hcmd : inp.cmd = encode i)
    (hwf : i.wf p.fixAll = true) : codec p inp = responseOf p inp i := by
  rw [codec_eq_responseOfWord, hcmd, decode_encode hwf]
  rfl

theorem codec_encRequest (p : Params) (t : PrimType) (v : Word) : codec p (Inputs.encRequest t v) = enc t.sz v := by
  rw [codec_of_encode rfl (ofOpType_enc_wf p.fixAll t)]
  simp [responseOf, encRequest_eq]

theorem codec_decsRequest (p : Params) (t : PrimType) (b : Word) (pres : Bool) (n : Nat) :
    codec p (Inputs.decsRequest t b pres n) = decs t.sz t.kind b pres (portLen p.lenBits n) := by
  rw [codec_of_encode rfl (ofOpType_decs_wf p.fixAll t)]
  simp [responseOf, decsRequest_eq]

/-- Assembling the lanes an encode wrote gives back the n bits it took (R69, R80). -/
theorem assemble_enc_bout (sz : BitVec 2) (v : Word) : assemble sz (enc sz v).bout = encodeOperand sz v := by
  have hle := bitsOf_le sz
  ext j hj
  rw [← BitVec.getLsbD_eq_getElem, assemble_getLsbD sz _ j hj, enc_bout_getLsbD sz v _ (by omega)]
  simp [encodeOperand]

/-- A length below 2^LEN_BITS is the number its port carries (R23). -/
theorem portLen_of_lt {lenBits n : Nat} (h : n < 2 ^ lenBits) : portLen lenBits n = n := by
  simp [portLen, Nat.mod_eq_of_lt h]

/-- Every width fits the length port (R23, R61). -/
theorem widthOf_lt_two_pow {p : Params} (h : p.WF) (sz : BitVec 2) : widthOf sz < 2 ^ p.lenBits :=
  calc widthOf sz ≤ 8 := widthOf_le sz
    _ < 2 ^ 4 := by decide
    _ ≤ 2 ^ p.lenBits := Nat.pow_le_pow_right (by decide) h

/-! ## The host's requests -/

theorem issue_wf {s : State} {i : Inputs} (h : s.WF) (hi : i.WF s.params) : (s.issue i).WF := by
  obtain ⟨hp, hlen, -, -⟩ := h
  exact ⟨hp, hlen, hi, List.forall_mem_nil _⟩

/-- After the issued request the ports are idle (log 3). -/
theorem inputsAt_issue_succ (s : State) (i : Inputs) (k : Nat) : (s.issue i).inputsAt (k + 1) = Inputs.idle := rfl

/-- A machine that can be used: it needs no reset edge first (R174). -/
def State.Usable (s : State) : Prop := s.params.latency = 0 ∨ s.resetDone = true

theorem step_usable {s t : State} (h : s.Usable) (hst : step s = .next t) : t.Usable := by
  obtain hl | hd := h
  · exact .inl (by rw [step_params hst, hl])
  · exact .inr (by rw [resetDone_of_step hst, hd, Bool.true_or])

/-- A request issued without reset is carried through by a usable machine. -/
theorem issue_carriedThrough {s : State} {i : Inputs} (h : s.Usable) (hrst : i.rst = false) :
    Statements.CarriedThrough (s.issue i) 0 := by
  refine fun hl => ⟨fun j _ _ => ?_, .inl (h.resolve_left (Nat.ne_of_gt hl))⟩
  cases j with
  | zero => exact hrst
  | succ j => rw [inputsAt_issue_succ]; rfl

/-- A host's request to a usable machine is answered by `codec`, and the machine stays usable (R176, R177, log 16). -/
theorem request_eq {s : State} {i : Inputs} (hwf : s.WF) (huse : s.Usable) (hi : i.WF s.params) (hrst : i.rst = false)
    (hreq : i.reqValid = true) :
    ∃ u, s.request i = some (codec s.params i, u) ∧ u.WF ∧ u.Usable ∧ u.params = s.params := by
  obtain ⟨u, hrun, hvalid, hrsp⟩ := run_shows_request (issue_wf hwf hi) (issue_carriedThrough huse hrst)
  have huse' : (s.issue i).Usable := huse
  refine ⟨u, ?_, run_keeps step_wf _ (issue_wf hwf hi) hrun, run_keeps step_usable _ huse' hrun, ?_⟩
  · rw [issue_inp, hreq] at hvalid
    rw [issue_params] at hrun
    simp [State.request, hrun, hvalid, hrsp hreq]
  · exact run_keeps (P := fun u => u.params = s.params) (fun hp hst => (step_params hst).trans hp) _
      (issue_params s i) hrun

/-! ## The ports a line drives -/

theorem bits_pos (t : PrimType) : 0 < bits t := by cases t <;> decide

/-- `enc.T v` presents the pattern of v, if it has one (R72). -/
theorem ports_enc (lenBits : Nat) (prev : Option Response) (t : PrimType) (v : Operand) :
    (Line.enc t v).ports lenBits prev = (v.pattern t).map (Inputs.encRequest t) := rfl

/-- In the signed range a decimal is the two's complement of its n bits (R72). -/
theorem pattern_dec_of_signed_range {t : PrimType} {z : Int} (h : t.kind = .sint)
    (hlo : -(2 ^ (bits t - 1) : Int) ≤ z) (hhi : z < 2 ^ (bits t - 1)) :
    ∃ v : BitVec (bits t), v.toInt = z ∧ (Operand.dec z).pattern t = some (v.setWidth 64) :=
  ⟨BitVec.ofInt (bits t) z, BitVec.toInt_ofInt_eq_self (bits_pos t) hlo hhi, by
    rw [pattern_dec_signed t z h, if_pos ⟨hlo, hhi⟩]⟩

/-- Outside the signed range a decimal does not assemble (log 19). -/
theorem pattern_dec_of_not_signed_range {t : PrimType} {z : Int} (h : t.kind = .sint)
    (hz : z < -(2 ^ (bits t - 1) : Int) ∨ (2 ^ (bits t - 1) : Int) ≤ z) : (Operand.dec z).pattern t = none := by
  rw [pattern_dec_signed t z h, if_neg fun ⟨hlo, hhi⟩ => hz.elim (not_lt.mpr hlo) (not_le.mpr hhi)]

/-- A decimal in 0..65535 is its own pattern as a char (R72). -/
theorem pattern_dec_of_char_range {z : Int} (hlo : 0 ≤ z) (hhi : z ≤ 65535) :
    ∃ v : Word, (v.toNat : Int) = z ∧ (Operand.dec z).pattern .char = some v := by
  refine ⟨(BitVec.ofInt 16 z).setWidth 64, ?_, by rw [pattern_dec_char, if_pos ⟨hlo, by omega⟩]⟩
  simp only [BitVec.toNat_setWidth, BitVec.toNat_ofInt]
  omega

/-- Outside 0..65535 a decimal does not assemble as a char (log 19). -/
theorem pattern_dec_of_not_char_range {z : Int} (hz : z < 0 ∨ 65535 < z) : (Operand.dec z).pattern .char = none := by
  rw [pattern_dec_char, if_neg (by omega)]

end Sys2Proof.Machine

namespace Sys2Proof.Statements
open Sys2Proof.Machine

/-- Settles O45, by induction on the periods before the request: each step brings it one period nearer. -/
theorem responseAppearsAfterLatency : Obligations.ResponseAppearsAfterLatency := by
  intro s k
  induction k generalizing s with
  | zero =>
    intro hwf hc
    rw [Nat.zero_add, inputsAt_zero]
    exact run_shows_request hwf hc
  | succ k ih =>
    intro hwf hc
    have hst := step_eq s
    have hnext := ih _ (step_wf hwf hst) (carriedThrough_of_step hst hc)
    rw [step_params hst, inputsAt_of_step hst] at hnext
    rw [show k + 1 + s.params.latency + 1 = k + s.params.latency + 1 + 1 by omega, run_succ s _ _ hst]
    exact hnext

/-- Settles O46: both machines show `codec` of their request, which reads the five inputs alone. -/
theorem responsesAreIndependent : Obligations.ResponsesAreIndependent := by
  intro s u k m hs hu hp hcs hcu hvs hvu hcmd hval hbin hpres hlen
  obtain ⟨t, ht, htv, htr⟩ := responseAppearsAfterLatency s k hs hcs
  obtain ⟨v, hv, hvv, hvr⟩ := responseAppearsAfterLatency u m hu hcu
  refine ⟨t, v, ht, hv, Outputs.eq_of_ports ?_ ?_⟩
  · rw [htv, hvv, hvs, hvu]
  · rw [htr hvs, hvr hvu, hp, codec_congr hcmd hval hbin hpres hlen]

/-- Settles O47: the second request presents the lanes and the length the first one's response wrote. -/
theorem roundTripThroughThePipeline : Obligations.RoundTripThroughThePipeline := by
  intro t v s hwf huse
  have ⟨hparams, _⟩ := hwf
  have hfits := widthOf_lt_two_pow hparams t.sz
  have hlen : (enc t.sz v).outLen.toNat = widthOf t.sz := ofNat_widthOf_toNat t.sz
  obtain ⟨u, hreq, huwf, huuse, hup⟩ := request_eq (i := Inputs.encRequest t v) hwf huse (Nat.two_pow_pos _) rfl rfl
  rw [codec_encRequest] at hreq
  obtain ⟨u', hreq', -⟩ := request_eq
    (i := Inputs.decsRequest t (enc t.sz v).bout true (enc t.sz v).outLen.toNat) huwf huuse
    (by rw [hup, decsRequest_eq, Inputs.WF, hlen]; exact hfits) rfl rfl
  rw [codec_decsRequest, hup, hlen, portLen_of_lt hfits, decs_ok _ _ _ le_rfl, assemble_enc_bout] at hreq'
  refine ⟨_, u, _, u', hreq, by rw [hlen]; exact hreq', rfl, ?_⟩
  exact ext_low t.sz t.kind (encodeOperand t.sz v)

/-- Settles O29: the response of each family is a function of what it reads, and the next state of the response. -/
theorem commandsIgnoreUnreadPorts : Obligations.CommandsIgnoreUnreadPorts := by
  intro i s v b p n
  refine ⟨fun hop hval => exec_of_operands ?_, fun hop hlanes => exec_of_operands ?_,
    fun hop hlanes => exec_of_operands ?_⟩
  · simp only [responseOf, hop]
    exact enc_congr hval
  · simp only [responseOf, hop]
    exact decs_congr _ _ _ (assemble_congr hlanes)
  · simp only [responseOf, hop, decf_congr _ (assemble_congr hlanes)]

/-- Settles O8: the placed word is the command's own, which decodes to it, and a placed request has no reset. -/
theorem placedWordRunsNext : Obligations.PlacedWordRunsNext := by
  intro s i hwf
  refine ⟨?_, by rw [withFetchWord_encode]; rfl, decodeTableWord_encode i⟩
  rw [withFetchWord_encode]
  exact step_of_command ((resetting_eq_false_iff _).mpr (.inr rfl)) (decode_encode hwf)

/-- Each spelling of `enc.T v` presents its pattern, where it has one. -/
theorem encodeLineDrives (lenBits : Nat) (t : PrimType) (prev : Option Response) : EncodeLineDrives lenBits t prev := by
  refine ⟨fun x => ?_, fun h z => ⟨fun hlo hhi => ?_, fun hz => ?_⟩, ?_, fun h z => ?_, fun u => ?_⟩
  · rw [ports_enc, pattern_hex, apply_ite (Option.map _)]
    rfl
  · obtain ⟨v, hv, hp⟩ := pattern_dec_of_signed_range h hlo hhi
    exact ⟨v, hv, by rw [ports_enc, hp]; rfl⟩
  · rw [ports_enc, pattern_dec_of_not_signed_range h hz]
    rfl
  · rintro rfl z
    refine ⟨fun hlo hhi => ?_, fun hz => ?_⟩
    · obtain ⟨v, hv, hp⟩ := pattern_dec_of_char_range hlo hhi
      exact ⟨v, hv, by rw [ports_enc, hp]; rfl⟩
    · rw [ports_enc, pattern_dec_of_not_char_range hz]
      rfl
  · rw [ports_enc, pattern_dec_float t z h]
    rfl
  · rw [ports_enc, pattern_chr, apply_ite (Option.map _)]
    rfl

/-- Settles O48: the spellings of `enc.T v` and the lanes of a list have their lemmas; the other forms drive their
request by definition. -/
theorem linesDriveTheirPorts : Obligations.LinesDriveTheirPorts :=
  fun lenBits t bs _ _ prev => ⟨encodeLineDrives lenBits t prev, rfl, rfl, rfl, rfl,
    fun h => if_pos h, fun h => if_neg h, rfl, rfl, lane_presentBytes bs⟩

end Sys2Proof.Statements
end

section
/-! SUPPORT. The memory family: what a checked decode of an encode's lanes shows, at the encode's width or a narrower
one, and that a step runs the command on the `cmd` port. -/

namespace Sys2Proof.Machine

/-- Assembling no more lanes than an encode wrote gives the most significant bits of the n' it took (R43). -/
theorem assemble_enc_bout_of_le {sz sz' : BitVec 2} (v : Word) (h : bitsOf sz ≤ bitsOf sz') :
    assemble sz (enc sz' v).bout = v.extractLsb' (bitsOf sz' - bitsOf sz) (bitsOf sz) := by
  have hle := bitsOf_le sz'
  ext j hj
  have hpos : 64 - bitsOf sz + j - (64 - bitsOf sz') = bitsOf sz' - bitsOf sz + j := by omega
  have hin : 64 - bitsOf sz' ≤ 64 - bitsOf sz + j := by omega
  rw [← BitVec.getLsbD_eq_getElem, assemble_getLsbD sz _ j hj, enc_bout_getLsbD sz' v _ (by omega), hpos]
  simp [hin]

/-- The encode of a type responds with `enc` at the type's SZ (R80). -/
theorem exec_ofOpType_enc (t : PrimType) (s : State) :
    exec (.ofOpType .enc t) s = .next (s.respond (enc t.sz s.inp.valIn)) := by
  rw [exec_enc _ s (ofOpType_op t .enc), ofOpType_ty]

/-- The checked decode of a type shows the extension of its lanes where the sequence is there and long enough (R100). -/
theorem exec_ofOpType_decs_ok {t : PrimType} {s : State} (hp : s.inp.inPresent = true) (hn : width t ≤ s.reqLen) :
    exec (.ofOpType .decs t) s =
      .next (s.respond (Statements.decodedAs (ext t.kind (assemble t.sz s.inp.bin)))) := by
  rw [exec_decs _ s (ofOpType_op t .decs), ofOpType_ty, hp, decs_ok _ _ _ hn]

end Sys2Proof.Machine

namespace Sys2Proof.Statements
open Sys2Proof.Machine

/-- Settles O27: the narrower decode assembles the top bits of the lanes the encode filled, and extending keeps them. -/
theorem narrowerDecodeSeesTopBytes : Obligations.NarrowerDecodeSeesTopBytes := by
  intro t w s hlt
  have hbits : bits t ≤ bits w := Nat.mul_le_mul_left 8 hlt.le
  refine ⟨_, exec_ofOpType_enc w s, fun u hbin hpres hlen => ⟨_, exec_ofOpType_decs_ok hpres hlen, ?_⟩⟩
  have htop : assemble t.sz u.inp.bin = s.inp.valIn.extractLsb' (bits w - bits t) (bits t) := by
    rw [hbin]
    exact assemble_enc_bout_of_le s.inp.valIn hbits
  exact (ext_low t.sz t.kind _).trans htop

/-- Settles O7: without a reset edge a step goes to the command of its word. -/
theorem stepRunsTheDecodedCommand : Obligations.StepRunsTheDecodedCommand :=
  fun s _ hrun hdec => step_of_command ((resetting_eq_false_iff s).mpr hrun) hdec

end Sys2Proof.Statements
end

section
/-! SUPPORT. The encoding family: a word and its fields determine each other, the words of the map are the legal ones,
what a reserved word gets, the two forms of assembling, and that no run stops. -/

namespace Sys2Proof.Machine

/-! ## The fields of a word -/

/-- A word is its four fields, RSV on top (R60). -/
theorem append_fields (c : Cmd) : fieldRsv c ++ fieldOp c ++ fieldKind c ++ fieldSz c = c := by
  revert c; decide

theorem eq_of_fields {a b : Cmd} (hrsv : fieldRsv a = fieldRsv b) (hop : fieldOp a = fieldOp b)
    (hkind : fieldKind a = fieldKind b) (hsz : fieldSz a = fieldSz b) : a = b := by
  rw [← append_fields a, ← append_fields b, hrsv, hop, hkind, hsz]

/-- No two OP values select one family (R63). -/
theorem opOf_inj {a b : BitVec 2} {o : Op} (ha : opOf a = some o) (hb : opOf b = some o) : a = b := by
  revert a b o; decide

/-- No two KIND values select one kind (R62). -/
theorem kindOf_inj {a b : BitVec 2} {k : Kind} (ha : kindOf a = some k) (hb : kindOf b = some k) : a = b := by
  revert a b k; decide

/-! ## Legal words and commands -/

/-- R66's formula in the fields of the word, checked on all 256 words; the words FIX_ALL = 0 takes away are those of
DECF.B and DECF.F. -/
theorem legal_iff_fields : ∀ (f : Bool) (c : Cmd), legal f c = true ↔
    fieldRsv c = 0 ∧ fieldOp c ≠ 3 ∧
    (fieldKind c = 0 ∨ (fieldKind c = 1 ∧ fieldSz c = 1) ∨ (fieldKind c = 2 ∧ (fieldSz c = 2 ∨ fieldSz c = 3))) ∧
    ¬ (f = false ∧ (c = 0x20#8 ∨ c = 0x2A#8)) := by decide

/-- Words that decode to one command are one word: it has RSV 00 and the command's OP, KIND and SZ (R65). -/
theorem decode_inj {f g : Bool} {a b : Cmd} {i : Instr} (ha : decode f a = .ok i) (hb : decode g b = .ok i) :
    a = b := by
  obtain ⟨hlegala, -, hopa, hkinda, hsza⟩ := decode_ok_fields ha
  obtain ⟨hlegalb, -, hopb, hkindb, hszb⟩ := decode_ok_fields hb
  obtain ⟨hrsva, -⟩ := (legal_iff_fields f a).mp hlegala
  obtain ⟨hrsvb, -⟩ := (legal_iff_fields g b).mp hlegalb
  exact eq_of_fields (hrsva.trans hrsvb.symm) (opOf_inj hopa hopb) (kindOf_inj hkinda hkindb) (hsza.trans hszb.symm)

theorem encode_of_decode {f : Bool} {c : Cmd} {i : Instr} (h : decode f c = .ok i) : encode i = c := by
  obtain ⟨-, hwf, -⟩ := decode_ok_fields h
  exact decode_inj (decode_encode hwf) h

theorem encode_inj {i j : Instr} (h : encode i = encode j) : i = j := by
  have hi := decode_encode (wf_of_fixAll i)
  rw [h, decode_encode (wf_of_fixAll j)] at hi
  exact (Except.ok.inj hi).symm

theorem exists_decode_iff_legal (f : Bool) (c : Cmd) : (∃ i, decode f c = .ok i) ↔ legal f c = true := by
  refine ⟨fun ⟨i, hi⟩ => (decode_ok_fields hi).left, fun hlegal => ?_⟩
  cases hdec : decode f c with
  | ok i => exact ⟨i, rfl⟩
  | error e =>
    rw [decode_error_reserved hdec] at hlegal
    cases hlegal

/-- The legal words are the words of the commands that exist (R66). -/
theorem legal_iff_exists_encode (f : Bool) (c : Cmd) : legal f c = true ↔
    ∃ i : Instr, i.wf f = true ∧ encode i = c := by
  rw [← exists_decode_iff_legal]
  constructor
  · rintro ⟨i, hi⟩
    obtain ⟨-, hwf, -⟩ := decode_ok_fields hi
    exact ⟨i, hwf, encode_of_decode hi⟩
  · rintro ⟨i, hwf, rfl⟩
    exact ⟨i, decode_encode hwf⟩

/-- FIX_ALL = 0 takes away DECF.B and DECF.F alone (R122). -/
theorem wf_false_iff (i : Instr) : i.wf false = true ↔ i ≠ .decfB ∧ i ≠ .decfF := by cases i <;> decide

/-- A reserved word is answered with ILLEGAL_CMD (R67). -/
theorem codec_of_reserved {p : Params} {inp : Inputs} (h : legal p.fixAll inp.cmd = false) :
    codec p inp = raiseIllegalCommand := if_pos h

/-! ## The two forms of assembling -/

/-- Lane k of a W-byte value, shifted to its place, holds that lane's bits of `bin`, and 0 elsewhere (R69). -/
theorem placedLane_getLsbD {w k : Nat} (hw : w ≤ 8) (hk : k < w) (bin : Word) (j : Nat) :
    ((lane bin k).setWidth 64 <<< (8 * (w - 1 - k))).getLsbD j =
      (decide (8 * (w - 1 - k) ≤ j ∧ j < 8 * (w - k)) && bin.getLsbD (64 - 8 * w + j)) := by
  rw [BitVec.getLsbD_shiftLeft, BitVec.getLsbD_setWidth]
  by_cases hlow : j < 8 * (w - 1 - k)
  · simp [hlow]
  by_cases hhigh : j < 8 * (w - k)
  · have hlane : j - 8 * (w - 1 - k) < 8 := by omega
    have hpos : 56 - 8 * k + (j - 8 * (w - 1 - k)) = 64 - 8 * w + j := by omega
    have h64 : j < 64 := by omega
    have h64' : j - 8 * (w - 1 - k) < 64 := by omega
    simp [lane_getLsbD bin k _ hlane, hpos, hlow, hhigh, h64, h64', Nat.not_lt.mp hlow]
  · have hpast : (lane bin k).getLsbD (j - 8 * (w - 1 - k)) = false := BitVec.getLsbD_of_ge _ _ (by omega)
    simp [hpast, hhigh]

/-- The OR of the first m lanes of a W-byte value holds the bits of `bin` where those lanes stand (R69). -/
theorem orLanes_getLsbD {w : Nat} (hw : w ≤ 8) (bin : Word) (j : Nat) {m : Nat} (hm : m ≤ w) :
    (orLanes w bin m).getLsbD j =
      (decide (8 * (w - m) ≤ j ∧ j < 8 * w) && bin.getLsbD (64 - 8 * w + j)) := by
  induction m with
  | zero => simp [orLanes]
  | succ m ih =>
    rw [orLanes, BitVec.getLsbD_or, ih (by omega), placedLane_getLsbD hw hm, ← Bool.and_or_distrib_right,
      ← Bool.decide_or]
    congr 2
    rw [eq_iff_iff]
    omega

/-- The slice of `bin` and the OR of its lanes are the same value (R69). -/
theorem assemble_eq_assembleByLanes (sz : BitVec 2) (bin : Word) : assemble sz bin = assembleByLanes sz bin := by
  have hbits : bitsOf sz = 8 * widthOf sz := rfl
  ext j hj
  rw [← BitVec.getLsbD_eq_getElem, ← BitVec.getLsbD_eq_getElem, assemble_getLsbD sz bin j hj, assembleByLanes,
    BitVec.getLsbD_setWidth, orLanes_getLsbD (widthOf_le sz) bin j le_rfl]
  simp [hj, ← hbits]

/-- At the full width nothing is left to extend: every kind gives `bin` back (R69). -/
theorem ext_assemble_of_full_width {sz : BitVec 2} (k : Kind) (bin : Word) (h : widthOf sz = 8) :
    ext k (assemble sz bin) = bin := by
  have hbits : bitsOf sz = 64 := congrArg (8 * ·) h
  ext j hj
  have hraw : (assemble sz bin).getLsbD j = bin.getLsbD j := by
    rw [assemble_getLsbD sz bin j (hbits ▸ hj), hbits, Nat.sub_self, Nat.zero_add]
  have hbit := congrArg (·.getLsbD j) (ext_low sz k (assemble sz bin))
  simp only [hraw, BitVec.getLsbD_extractLsb', hbits, hj, decide_true, Bool.true_and, Nat.zero_add] at hbit
  exact hbit

/-! ## Running -/

/-- Every run goes on to its end, as every step does (R70, R148). -/
theorem exists_run_eq_next (k : Nat) (s : State) : ∃ t, run k s = .next t := by
  induction k generalizing s with
  | zero => exact ⟨s, run_zero s⟩
  | succ k ih =>
    rw [run_succ s _ k (step_eq s)]
    exact ih _

end Sys2Proof.Machine

namespace Sys2Proof.Statements
open Sys2Proof.Machine

/-! ## The opcode map -/

/-- The columns of every row: the word is the command's, and carries the OP, KIND and SZ shown (R65). -/
theorem opcodeMap_columns : ∀ row ∈ opcodeMap,
    encode row.instr = row.word ∧ fieldRsv row.word = 0 ∧ fieldOp row.word = row.op ∧
    fieldKind row.word = row.kind ∧ fieldSz row.word = row.sz ∧ width row.instr.ty = row.w := by decide

/-- Every command has its row. -/
theorem encode_mem_opcodeMap (i : Instr) : encode i ∈ opcodeMap.map OpcodeRow.word := by cases i <;> decide

/-- The words of the map are the words of the commands (R65). -/
theorem mem_opcodeMap_words_iff (c : Cmd) : c ∈ opcodeMap.map OpcodeRow.word ↔ ∃ i, encode i = c := by
  constructor
  · intro hmem
    obtain ⟨row, hrow, rfl⟩ := List.mem_map.mp hmem
    obtain ⟨hword, -⟩ := opcodeMap_columns row hrow
    exact ⟨row.instr, hword⟩
  · rintro ⟨i, rfl⟩
    exact encode_mem_opcodeMap i

theorem legal_true_iff_mem_opcodeMap (c : Cmd) : legal true c = true ↔ c ∈ opcodeMap.map OpcodeRow.word := by
  simp only [legal_iff_exists_encode, mem_opcodeMap_words_iff, wf_of_fixAll, true_and]

theorem legal_false_iff_mem_opcodeMap (c : Cmd) :
    legal false c = true ↔ c ∈ opcodeMap.map OpcodeRow.word ∧ c ≠ 0x20#8 ∧ c ≠ 0x2A#8 := by
  rw [legal_iff_exists_encode, mem_opcodeMap_words_iff]
  constructor
  · rintro ⟨i, hwf, rfl⟩
    obtain ⟨hB, hF⟩ := (wf_false_iff i).mp hwf
    exact ⟨⟨i, rfl⟩, fun h => hB (encode_inj (j := .decfB) h), fun h => hF (encode_inj (j := .decfF) h)⟩
  · rintro ⟨⟨i, rfl⟩, hB, hF⟩
    exact ⟨i, (wf_false_iff i).mpr ⟨by rintro rfl; exact hB rfl, by rintro rfl; exact hF rfl⟩, rfl⟩

/-! ## The obligations -/

/-- Settles O23: the slice and the OR of the lanes agree bit by bit, and extending keeps the raw bits. -/
theorem assembleFormsAgree : Obligations.AssembleFormsAgree :=
  fun sz bin => ⟨assemble_eq_assembleByLanes sz bin, rfl, rfl, rfl,
    fun k => ⟨ext_low sz k _, ext_assemble_of_full_width k bin⟩⟩

/-- Settles O32: without a reset edge a step responds to its word, and `codec`'s dispatch agrees with the decoder. -/
theorem stepRespondsWithCodec : Obligations.StepRespondsWithCodec :=
  fun s hrun => step_of_not_resetting ((resetting_eq_false_iff s).mpr hrun)

/-- Settles O40, by induction on the number of steps. -/
theorem everyRunContinues : Obligations.EveryRunContinues :=
  fun k s => exists_run_eq_next k s

/-- Settles O1: the columns are those of the table, and a word that decodes to a row's command is its encoding. -/
theorem opcodeMapDecodesAsListed : Obligations.OpcodeMapDecodesAsListed := by
  intro row hrow
  obtain ⟨hword, hrsv, hop, hkind, hsz, hw⟩ := opcodeMap_columns row hrow
  refine ⟨?_, hword, hrsv, hop, hkind, hsz, hw, fun c hc => ?_⟩
  · rw [← hword, decode_encode (wf_of_fixAll row.instr)]
  · rw [← hword, encode_of_decode hc]

/-- Settles O2: the legal words are those of the commands that exist, and every command has its row in the map. -/
theorem legalWordsAreExactlyTheMap : Obligations.LegalWordsAreExactlyTheMap :=
  ⟨legal_iff_fields, legal_true_iff_mem_opcodeMap, legal_false_iff_mem_opcodeMap, by decide, by decide⟩

/-- Settles O3: a decoded word is legal and a rejected one is not. -/
theorem decoderAcceptsExactlyLegalWords : Obligations.DecoderAcceptsExactlyLegalWords :=
  exists_decode_iff_legal

/-- Settles O4, command by command. -/
theorem decodeOfEncodeIsIdentity : Obligations.DecodeOfEncodeIsIdentity :=
  fun _ _ hwf => decode_encode hwf

/-- Settles O5: a command's fields leave one word for it. -/
theorem encodeOfDecodeIsIdentity : Obligations.EncodeOfDecodeIsIdentity := by
  intro f c i hdec
  obtain ⟨-, hwf, -⟩ := decode_ok_fields hdec
  exact ⟨encode_of_decode hdec, hwf⟩

/-- Settles O9: `codec` answers a reserved word with ILLEGAL_CMD before it reads any other port. -/
theorem reservedWordRaisesIllegalCommand : Obligations.ReservedWordRaisesIllegalCommand := by
  intro s hrun hres
  rw [step_of_not_resetting ((resetting_eq_false_iff s).mpr hrun), codec_of_reserved hres, raiseIllegalCommand_eq]

end Sys2Proof.Statements
end

section
/-! SUPPORT. The encode family: `bout` lane by lane, `bout` as the operand above zeros, and that an encode depends on
its type's width alone. -/

namespace Sys2Proof.Machine

/-! ## The lanes of an encode -/

/-- Lane k below W holds byte k of the value, most significant first (R42, R80). -/
theorem lane_enc_bout_of_lt {sz : BitVec 2} {k : Nat} (v : Word) (hk : k < widthOf sz) :
    lane (enc sz v).bout k = v.extractLsb' (8 * (widthOf sz - 1 - k)) 8 := by
  have hbits : bitsOf sz = 8 * widthOf sz := rfl
  have hw := widthOf_le sz
  ext j hj
  have hin : 64 - bitsOf sz ≤ 56 - 8 * k + j := by omega
  have hpos : 56 - 8 * k + j - (64 - bitsOf sz) = 8 * (widthOf sz - 1 - k) + j := by omega
  rw [← BitVec.getLsbD_eq_getElem, lane_getLsbD _ k j hj, enc_bout_getLsbD sz v _ (by omega), hpos]
  simp [hin]

/-- The lanes from W on are 0 (R80, R89). -/
theorem lane_enc_bout_of_ge {sz : BitVec 2} {k : Nat} (v : Word) (hk : widthOf sz ≤ k) (hk8 : k < 8) :
    lane (enc sz v).bout k = 0 := by
  have hbits : bitsOf sz = 8 * widthOf sz := rfl
  ext j hj
  have hbelow : ¬ 64 - bitsOf sz ≤ 56 - 8 * k + j := by omega
  rw [← BitVec.getLsbD_eq_getElem, lane_getLsbD _ k j hj, enc_bout_getLsbD sz v _ (by omega)]
  simp [hbelow]

/-! ## The response of each width -/

/-- Two bytes in a row are the 16 bits they cover. -/
theorem append_twoBytes (v : Word) : v.extractLsb' 8 8 ++ v.extractLsb' 0 8 = v.extractLsb' 0 16 :=
  BitVec.extractLsb'_append_extractLsb'_eq_extractLsb' rfl

/-- Four bytes in a row are the 32 bits they cover. -/
theorem append_fourBytes (v : Word) :
    v.extractLsb' 24 8 ++ v.extractLsb' 16 8 ++ v.extractLsb' 8 8 ++ v.extractLsb' 0 8 = v.extractLsb' 0 32 := by
  rw [BitVec.extractLsb'_append_extractLsb'_eq_extractLsb' (start₂ := 24) (start₁ := 16) rfl,
    BitVec.extractLsb'_append_extractLsb'_eq_extractLsb' (start₂ := 16) (start₁ := 8) rfl]
  exact BitVec.extractLsb'_append_extractLsb'_eq_extractLsb' rfl

/-- ENC of an n-bit type: the low n bits of the value above zeros, as many as make up 64 bits (R80). -/
theorem enc_eq_append {sz : BitVec 2} {n m : Nat} (v : Word) (hn : bitsOf sz = n) (hm : n + m = 64) :
    enc sz v = Statements.encodedAs ((v.extractLsb' 0 n ++ 0#m).cast hm) (BitVec.ofNat 4 (widthOf sz)) := by
  obtain rfl : m = 64 - bitsOf sz := by omega
  subst hn
  refine congrArg (Statements.encodedAs · _) ?_
  ext j hj
  by_cases hlow : j < 64 - bitsOf sz
  · simp [BitVec.getElem_append, hlow]
  · have hin : j - (64 - bitsOf sz) < bitsOf sz := by omega
    simp [BitVec.getElem_append, hlow, hin, encodeOperand]

/-- ENC at width 1: the byte above seven zero lanes (R81). -/
theorem enc_byte_eq (v : Word) : enc 0#2 v = Statements.encodedAs (v.extractLsb' 0 8 ++ 0#56) 1 := by
  rw [enc_eq_append v (n := 8) (m := 56) rfl rfl]
  rfl

/-- ENC at width 2: the two bytes above six zero lanes (R82, R83). -/
theorem enc_twoBytes_eq (v : Word) :
    enc 1#2 v = Statements.encodedAs (v.extractLsb' 8 8 ++ v.extractLsb' 0 8 ++ 0#48) 2 := by
  rw [append_twoBytes, enc_eq_append v (n := 16) (m := 48) rfl rfl]
  rfl

/-- ENC at width 4: the four bytes above four zero lanes (R84, R86). -/
theorem enc_fourBytes_eq (v : Word) : enc 2#2 v = Statements.encodedAs
    (v.extractLsb' 24 8 ++ v.extractLsb' 16 8 ++ v.extractLsb' 8 8 ++ v.extractLsb' 0 8 ++ 0#32) 4 := by
  rw [append_fourBytes, enc_eq_append v (n := 32) (m := 32) rfl rfl]
  rfl

/-- ENC at width 8: no zeros below, and the value fills the bus (R85, R87). -/
theorem enc_eightBytes_eq (v : Word) : enc 3#2 v = Statements.encodedAs v 8 := by
  rw [enc_eq_append v (n := 64) (m := 0) rfl rfl, BitVec.cast_eq, BitVec.append_zero_width, BitVec.extractLsb'_eq_self]
  rfl

/-! ## Encodes of one width -/

/-- An encode whose type has the SZ code `sz` responds with `enc` at `sz` (R80). -/
theorem exec_enc_of_sz {i : Instr} {sz : BitVec 2} (h : i.op = .enc ∧ i.ty.sz = sz) (s : State) :
    exec i s = .next (s.respond (enc sz s.inp.valIn)) := by
  obtain ⟨hop, rfl⟩ := h
  exact exec_enc i s hop

/-- Encodes of types of one width are one function of the state (R90). -/
theorem exec_enc_congr {i j : Instr} (hi : i.op = .enc) (hj : j.op = .enc) (hsz : i.ty.sz = j.ty.sz) (s : State) :
    exec i s = exec j s := by
  rw [exec_enc_of_sz ⟨hi, hsz⟩, exec_enc j s hj]

end Sys2Proof.Machine

namespace Sys2Proof.Statements
open Sys2Proof.Machine

/-- Settles O14: an encode responds with `enc`, whose lanes are the value's bytes and then 0. -/
theorem encodeFollowsByteOrderLaw : Obligations.EncodeFollowsByteOrderLaw := by
  intro i s hop
  exact ⟨_, exec_enc i s hop, fun k hk => lane_enc_bout_of_lt _ hk, fun k hk hk8 => lane_enc_bout_of_ge _ hk hk8,
    ofNat_widthOf_toNat i.ty.sz, rfl, rfl, rfl, rfl⟩

/-- Settles O10, by the response at width 1. -/
theorem encodeByteResponse : Obligations.EncodeByteResponse := by
  refine ⟨rfl, fun s => ?_⟩
  rw [exec_enc_of_sz (sz := 0#2) ⟨rfl, rfl⟩, enc_byte_eq]

/-- Settles O11: both commands have SZ 1, and so the response at width 2. -/
theorem encodeShortAndCharResponse : Obligations.EncodeShortAndCharResponse := by
  have hsz : ∀ i ∈ [Instr.encS, Instr.encC], i.op = .enc ∧ i.ty.sz = 1#2 := by decide
  refine ⟨rfl, rfl, fun s i hi => ?_⟩
  rw [exec_enc_of_sz (hsz i hi), enc_twoBytes_eq]

/-- Settles O12: both commands have SZ 2, and so the response at width 4. -/
theorem encodeIntAndFloatResponse : Obligations.EncodeIntAndFloatResponse := by
  have hsz : ∀ i ∈ [Instr.encI, Instr.encF], i.op = .enc ∧ i.ty.sz = 2#2 := by decide
  refine ⟨rfl, rfl, fun s i hi => ?_⟩
  rw [exec_enc_of_sz (hsz i hi), enc_fourBytes_eq]

/-- Settles O13: both commands have SZ 3, and so the response at width 8. -/
theorem encodeLongAndDoubleResponse : Obligations.EncodeLongAndDoubleResponse := by
  have hsz : ∀ i ∈ [Instr.encL, Instr.encD], i.op = .enc ∧ i.ty.sz = 3#2 := by decide
  refine ⟨rfl, rfl, fun s i hi => ?_⟩
  rw [exec_enc_of_sz (hsz i hi), enc_eightBytes_eq]

/-- Settles O15: the types of each pair have one SZ code. -/
theorem equalWidthTypesEncodeAlike : Obligations.EqualWidthTypesEncodeAlike :=
  fun s => ⟨exec_enc_congr rfl rfl rfl s, exec_enc_congr rfl rfl rfl s, exec_enc_congr rfl rfl rfl s⟩

end Sys2Proof.Statements
end

section
/-! SUPPORT. The checked-decode family: the number the assembled lanes stand for, what extending makes of it, the
assembled value of each width as lanes, and how a presented sequence reaches the ports. -/

namespace Sys2Proof.Machine

/-! ## The assembled value as a number -/

theorem lane_toNat (bus : Word) (k : Nat) : (lane bus k).toNat = bus.toNat / 2 ^ (56 - 8 * k) % 256 := by
  rw [lane, BitVec.extractLsb'_toNat, Nat.shiftRight_eq_div_pow]

/-- The assembled value is what stands above the lanes from W on (R69). -/
theorem assemble_toNat (sz : BitVec 2) (bin : Word) : (assemble sz bin).toNat = bin.toNat / 2 ^ (64 - bitsOf sz) := by
  have hsplit : 2 ^ (64 - bitsOf sz) * 2 ^ bitsOf sz = 2 ^ 64 := pow_sub_mul_pow 2 (bitsOf_le sz)
  have hlt : bin.toNat / 2 ^ (64 - bitsOf sz) < 2 ^ bitsOf sz :=
    Nat.div_lt_of_lt_mul (hsplit ▸ bin.isLt)
  rw [assemble, BitVec.extractLsb'_toNat, Nat.shiftRight_eq_div_pow, Nat.mod_eq_of_lt hlt]

/-! ## The assembled value of each width -/

/-- The value of a byte is lane 0 (R106). -/
theorem assemble_byte_eq (bin : Word) : assemble 0#2 bin = lane bin 0 := rfl

/-- The value of a short or char is lanes 0 and 1 in a row (R107, R108). -/
theorem assemble_twoLanes_eq (bin : Word) : assemble 1#2 bin = Statements.twoLanes bin :=
  (BitVec.extractLsb'_append_extractLsb'_eq_extractLsb' (start₂ := 56) (start₁ := 48) rfl).symm

/-- The value of an int or float is lanes 0 to 3 in a row (R109, R111). -/
theorem assemble_fourLanes_eq (bin : Word) : assemble 2#2 bin = Statements.fourLanes bin := by
  have htop : lane bin 0 ++ lane bin 1 = bin.extractLsb' 48 16 := (assemble_twoLanes_eq bin).symm
  have hthree : bin.extractLsb' 48 16 ++ lane bin 2 = bin.extractLsb' 40 24 :=
    BitVec.extractLsb'_append_extractLsb'_eq_extractLsb' rfl
  rw [Statements.fourLanes, htop, hthree]
  exact (BitVec.extractLsb'_append_extractLsb'_eq_extractLsb' (start₂ := 40) (start₁ := 32) rfl).symm

end Sys2Proof.Machine

namespace Sys2Proof.Statements
open Sys2Proof.Machine

/-! ## The number of a sequence of bytes -/

/-- A byte behind the others is the least significant one (R41). -/
theorem bigEndian_append_singleton (bs : List Byte) (b : Byte) :
    bigEndian (bs ++ [b]) = 256 * bigEndian bs + b.toNat := by
  simp [bigEndian]

/-- The first m lanes, read as unsigned bytes, are the number that stands above the other lanes (R102). -/
theorem bigEndian_lanes (bin : Word) {m : Nat} (hm : m ≤ 8) :
    bigEndian ((List.range m).map (lane bin)) = bin.toNat / 2 ^ (64 - 8 * m) := by
  induction m with
  | zero => exact (Nat.div_eq_of_lt bin.isLt).symm
  | succ m ih =>
    have hlow : 64 - 8 * (m + 1) = 56 - 8 * m := by omega
    have hhigh : 64 - 8 * m = 56 - 8 * m + 8 := by omega
    calc bigEndian ((List.range (m + 1)).map (lane bin))
        = 256 * bigEndian ((List.range m).map (lane bin)) + (lane bin m).toNat := by
          rw [List.range_succ, List.map_append, List.map_singleton, bigEndian_append_singleton]
      _ = 256 * (bin.toNat / 2 ^ (56 - 8 * m) / 256) + bin.toNat / 2 ^ (56 - 8 * m) % 256 := by
          rw [ih (by omega), lane_toNat, hhigh, Nat.pow_add, ← Nat.div_div_eq_div_mul]
      _ = bin.toNat / 2 ^ (64 - 8 * (m + 1)) := by rw [Nat.div_add_mod, hlow]

/-- The assembled value is the big-endian number of its W lanes (R69, R102). -/
theorem bigEndian_lanes_eq_assemble (sz : BitVec 2) (bin : Word) :
    bigEndian ((List.range (widthOf sz)).map (lane bin)) = (assemble sz bin).toNat := by
  rw [bigEndian_lanes bin (widthOf_le sz), assemble_toNat, bitsOf]

/-! ## What a successful decode shows -/

/-- Extending a pattern whose unsigned reading is a sequence's number shows that number as the type has it (R103). -/
theorem showsNumber_ext (t : PrimType) {bs : List Byte} {raw : BitVec (bits t)} (h : bigEndian bs = raw.toNat) :
    ShowsNumber t bs (ext t.kind raw) := by
  have hle : bits t ≤ 64 := bitsOf_le t.sz
  unfold ShowsNumber
  rw [h]
  cases t.kind with
  | sint =>
    have hhalf : 2 * raw.toNat < 2 ^ bits t ↔ raw.toNat < 2 ^ (bits t - 1) := by
      have hpow : 2 ^ (bits t - 1) * 2 = 2 ^ bits t := Nat.two_pow_pred_mul_two (bits_pos t)
      omega
    calc (raw.signExtend 64).toInt
        = raw.toInt := BitVec.toInt_signExtend_of_le hle
      _ = if raw.toNat < 2 ^ (bits t - 1) then (raw.toNat : Int) else raw.toNat - 2 ^ bits t := by
          simp [BitVec.toInt_eq_toNat_cond, hhalf]
  | uint => exact BitVec.toNat_setWidth_of_le hle
  | fp => exact BitVec.toNat_setWidth_of_le hle

/-- The extension of the assembled lanes shows the number of the first W lanes (R102, R103). -/
theorem showsNumber_assemble (t : PrimType) (bin : Word) :
    ShowsNumber t ((List.range (width t)).map (lane bin)) (ext t.kind (assemble t.sz bin)) :=
  showsNumber_ext t (bigEndian_lanes_eq_assemble t.sz bin)

/-! ## Checked decodes -/

/-- An absent sequence fails with ABSENT and the type's width (R100). -/
theorem exec_decs_absent {i : Instr} {s : State} (hop : i.op = .decs) (hp : s.inp.inPresent = false) :
    exec i s = .next (s.respond (errorOf 1 (BitVec.ofNat 4 (width i.ty)))) := by
  rw [exec_decs i s hop, hp, decs_absent, width]

/-- A present sequence with `in_len` below the type's width fails with TOO_SHORT (R100). -/
theorem exec_decs_tooShort {i : Instr} {s : State} (hop : i.op = .decs) (hp : s.inp.inPresent = true)
    (hn : s.reqLen < width i.ty) :
    exec i s = .next (s.respond (errorOf 2 (BitVec.ofNat 4 (width i.ty)))) := by
  rw [exec_decs i s hop, hp, decs_tooShort _ _ _ hn, width]

/-- A present sequence with `in_len` at least the type's width shows the extension of its lanes (R100). -/
theorem exec_decs_ok {i : Instr} {s : State} (hop : i.op = .decs) (hp : s.inp.inPresent = true)
    (hn : width i.ty ≤ s.reqLen) :
    exec i s = .next (s.respond (decodedAs (ext i.ty.kind (assemble i.ty.sz s.inp.bin)))) := by
  have h := exec_ofOpType_decs_ok hp hn
  rwa [← hop, ofOpType_op_ty] at h

/-- A checked decode checks its type's width, and its value is whatever extending its assembled lanes gives (R100). -/
theorem checksThenDecodes_of_value {i : Instr} {value : Word → Word} (hop : i.op = .decs)
    (hvalue : ∀ bin, ext i.ty.kind (assemble i.ty.sz bin) = value bin) : ChecksThenDecodes i (width i.ty) value :=
  fun s => ⟨exec_decs_absent hop, exec_decs_tooShort hop, fun hp hn => hvalue s.inp.bin ▸ exec_decs_ok hop hp hn⟩

/-! ## A presented sequence -/

/-- The length port carries the length the host presents (R23). -/
theorem reqLen_of_presents {s : State} {bs : List Byte} (h : Presents s bs) :
    s.reqLen = presentLen s.params.lenBits bs.length := by
  obtain ⟨-, -, hlen⟩ := h
  have hpos : 0 < 2 ^ s.params.lenBits := Nat.two_pow_pos _
  have hlt : presentLen s.params.lenBits bs.length < 2 ^ s.params.lenBits := by unfold presentLen; omega
  rw [State.reqLen, hlen, portLen_of_lt hlt]

/-- Cutting the presented length off at 2^LEN_BITS - 1 does not change how it compares with a width (R101). -/
theorem width_le_reqLen_iff {s : State} {bs : List Byte} (hwf : s.params.WF) (h : Presents s bs) (t : PrimType) :
    width t ≤ s.reqLen ↔ width t ≤ bs.length := by
  have hw : width t < 2 ^ s.params.lenBits := widthOf_lt_two_pow hwf t.sz
  rw [reqLen_of_presents h, presentLen, Nat.le_min]
  omega

/-- Where a presented sequence reaches width W, the first W lanes are its first W bytes (R22). -/
theorem lanes_eq_take_of_presents {s : State} {bs : List Byte} (h : Presents s bs) {t : PrimType}
    (hw : width t ≤ bs.length) : (List.range (width t)).map (lane s.inp.bin) = bs.take (width t) := by
  obtain ⟨-, hlanes, -⟩ := h
  have hle : width t ≤ 8 := widthOf_le t.sz
  refine List.ext_getElem (by simp [hw]) fun k hk _ => ?_
  have hkw : k < width t := by simpa using hk
  have hkbs : k < bs.length := by omega
  simp [hlanes k (by omega), hkbs]

/-! ## The obligations -/

/-- Settles O24: both families show the extension of the assembled lanes. -/
theorem decodeShowsTheLanesNumber : Obligations.DecodeShowsTheLanesNumber := by
  rintro i s (⟨hop, hp, hn⟩ | ⟨hop, hwf⟩)
  · exact ⟨_, exec_decs_ok hop hp hn, showsNumber_assemble i.ty s.inp.bin⟩
  · exact ⟨_, exec_decf i s hop hwf, showsNumber_assemble i.ty s.inp.bin⟩

/-- Settles O25: the length port tells a sequence's length well enough to compare it with W, and from W bytes on the
lanes read are the sequence's. -/
theorem sequenceDecodeMeetsItsContract : Obligations.SequenceDecodeMeetsItsContract := by
  intro t s
  have hop : (Instr.ofOpType .decs t).op = .decs := ofOpType_op t .decs
  have habsent := exec_decs_absent (s := s) hop
  have hshort := exec_decs_tooShort (s := s) hop
  rw [ofOpType_ty] at habsent hshort
  refine ⟨habsent, hshort, fun bs hwf hpres => ⟨fun hlt => ?_, fun hle => ?_⟩⟩
  · have hn : s.reqLen < width t := Nat.lt_of_not_le ((width_le_reqLen_iff hwf hpres t).not.mpr hlt.not_ge)
    exact hshort hpres.left hn
  · have hn : width t ≤ s.reqLen := (width_le_reqLen_iff hwf hpres t).mpr hle
    refine ⟨_, exec_ofOpType_decs_ok hpres.left hn, ?_⟩
    rw [← lanes_eq_take_of_presents hpres hle]
    exact showsNumber_assemble t s.inp.bin

/-- Settles O26: assembling the encode's lanes gives back the operand, and extending keeps its bits. -/
theorem roundTripIsBitExact : Obligations.RoundTripIsBitExact := by
  intro t s
  refine ⟨_, exec_ofOpType_enc t s, fun u hbin hpres hlen => ⟨_, exec_ofOpType_decs_ok hpres hlen.ge, ?_⟩⟩
  have hraw : assemble t.sz u.inp.bin = encodeOperand t.sz s.inp.valIn := by rw [hbin, assemble_enc_bout]
  exact (ext_low t.sz t.kind _).trans hraw

/-- Settles O16: the assembled value of a byte is lane 0. -/
theorem checkedDecodeByte : Obligations.CheckedDecodeByte :=
  ⟨rfl, checksThenDecodes_of_value rfl fun bin => congrArg (BitVec.signExtend 64) (assemble_byte_eq bin)⟩

/-- Settles O17: short and char assemble the same two lanes and differ in the extension. -/
theorem checkedDecodeShortAndChar : Obligations.CheckedDecodeShortAndChar :=
  ⟨rfl, rfl,
    checksThenDecodes_of_value rfl fun bin => congrArg (BitVec.signExtend 64) (assemble_twoLanes_eq bin),
    checksThenDecodes_of_value rfl fun bin => congrArg (BitVec.setWidth 64) (assemble_twoLanes_eq bin)⟩

/-- Settles O18: int and float assemble the same four lanes and differ in the extension. -/
theorem checkedDecodeIntAndFloat : Obligations.CheckedDecodeIntAndFloat :=
  ⟨rfl, rfl,
    checksThenDecodes_of_value rfl fun bin => congrArg (BitVec.signExtend 64) (assemble_fourLanes_eq bin),
    checksThenDecodes_of_value rfl fun bin => congrArg (BitVec.setWidth 64) (assemble_fourLanes_eq bin)⟩

/-- Settles O19: at width 8 assembling takes all of `bin` and extending changes nothing. -/
theorem checkedDecodeLongAndDouble : Obligations.CheckedDecodeLongAndDouble :=
  ⟨rfl, rfl,
    checksThenDecodes_of_value rfl fun bin => ext_assemble_of_full_width .sint bin rfl,
    checksThenDecodes_of_value rfl fun bin => ext_assemble_of_full_width .fp bin rfl⟩

end Sys2Proof.Statements
end

section
/-! SUPPORT. The fixed-decode family: which of the seven words exist, what a fixed-arity decode shows where its word
exists, and what it raises where it does not. -/

namespace Sys2Proof.Machine

/-- A command's word is legal exactly where the command exists (R66, R122). -/
theorem legal_encode (f : Bool) (i : Instr) : legal f (encode i) = i.wf f := by
  rw [Bool.eq_iff_iff, legal_iff_exists_encode]
  refine ⟨fun ⟨j, hwf, hword⟩ => ?_, fun hwf => ⟨i, hwf, rfl⟩⟩
  obtain rfl : j = i := encode_inj hword
  exact hwf

end Sys2Proof.Machine

namespace Sys2Proof.Statements
open Sys2Proof.Machine

/-- A fixed-arity decode that does not exist raises ILLEGAL_CMD (R122, R142). -/
theorem exec_decf_illegal {i : Instr} {s : State} (hop : i.op = .decf) (hwf : i.wf s.params.fixAll = false) :
    exec i s = .next (s.respond (errorOf 3 0)) := by
  have hraise : responseOf s.params s.inp i = raiseIllegalCommand := by simp [responseOf, hop, hwf]
  rw [exec_eq_respond, hraise, raiseIllegalCommand_eq]

/-- A fixed-arity decode that exists shows whatever extending its assembled lanes gives, in every state (R120). -/
theorem exec_decf_of_value {i : Instr} {value : Word → Word} {s : State} (hop : i.op = .decf)
    (hvalue : ∀ bin, ext i.ty.kind (assemble i.ty.sz bin) = value bin) (hwf : i.wf s.params.fixAll = true) :
    exec i s = .next (s.respond (decodedAs (value s.inp.bin))) := by
  rw [exec_decf i s hop hwf, decf_eq, hvalue]

/-- A fixed-arity decode that exists at both values of FIX_ALL always decodes (R120). -/
theorem decodesAlways_of_value {i : Instr} {value : Word → Word} (hop : i.op = .decf) (hwf : ∀ f, i.wf f = true)
    (hvalue : ∀ bin, ext i.ty.kind (assemble i.ty.sz bin) = value bin) : DecodesAlways i value :=
  fun _ => exec_decf_of_value hop hvalue (hwf _)

/-- A fixed-arity decode that exists with FIX_ALL = 1 alone decodes there and raises ILLEGAL_CMD otherwise (R122). -/
theorem decodesWithFixAll_of_value {i : Instr} {value : Word → Word} (hop : i.op = .decf) (hwf : ∀ f, i.wf f = f)
    (hvalue : ∀ bin, ext i.ty.kind (assemble i.ty.sz bin) = value bin) : DecodesWithFixAll i value :=
  fun _ => ⟨fun hfix => exec_decf_of_value hop hvalue ((hwf _).trans hfix),
    fun hfix => exec_decf_illegal hop ((hwf _).trans hfix)⟩

/-! ## The obligations -/

/-- Settles O28: a checked decode that succeeds and a fixed-arity decode that exists both show the extension of the
assembled lanes. -/
theorem fixedDecodeAgreesWithChecked : Obligations.FixedDecodeAgreesWithChecked := by
  intro t s hwf
  have hfixed := exec_decf _ s (ofOpType_op t .decf) hwf
  rw [ofOpType_ty, decf_eq] at hfixed
  exact ⟨fun hp hn => hfixed.trans (exec_ofOpType_decs_ok hp hn).symm, _, hfixed⟩

/-- Settles O20: DECF.B and DECF.F are the two commands that exist exactly where FIX_ALL = 1. -/
theorem fixedDecodeByteAndFloat : Obligations.FixedDecodeByteAndFloat :=
  ⟨rfl, rfl, legal_encode false .decfB, legal_encode false .decfF, fun i => ⟨wf_of_fixAll i, wf_false_iff i⟩,
    decodesWithFixAll_of_value rfl (fun _ => rfl) fun bin => congrArg (BitVec.signExtend 64) (assemble_byte_eq bin),
    decodesWithFixAll_of_value rfl (fun _ => rfl) fun bin => congrArg (BitVec.setWidth 64) (assemble_fourLanes_eq bin)⟩

/-- Settles O21: short and char assemble the same two lanes and differ in the extension. -/
theorem fixedDecodeShortAndChar : Obligations.FixedDecodeShortAndChar :=
  ⟨rfl, rfl,
    decodesAlways_of_value rfl (fun _ => rfl) fun bin => congrArg (BitVec.signExtend 64) (assemble_twoLanes_eq bin),
    decodesAlways_of_value rfl (fun _ => rfl) fun bin => congrArg (BitVec.setWidth 64) (assemble_twoLanes_eq bin)⟩

/-- Settles O22: int extends four lanes, and at width 8 assembling takes all of `bin` and extending changes nothing. -/
theorem fixedDecodeIntLongDouble : Obligations.FixedDecodeIntLongDouble :=
  ⟨rfl, rfl, rfl,
    decodesAlways_of_value rfl (fun _ => rfl) fun bin => congrArg (BitVec.signExtend 64) (assemble_fourLanes_eq bin),
    decodesAlways_of_value rfl (fun _ => rfl) fun bin => ext_assemble_of_full_width .sint bin rfl,
    decodesAlways_of_value rfl (fun _ => rfl) fun bin => ext_assemble_of_full_width .fp bin rfl⟩

end Sys2Proof.Statements
end

section
/-! SUPPORT. The exception family: which datapath answers a legal word and so which cause it can report, that `codec` is
coherent, and what a power transition keeps. -/

namespace Sys2Proof.Machine

/-! ## The datapath of a legal word -/

/-- A legal word of OP 00 is answered by `enc` (R70). -/
theorem codec_of_enc {p : Params} {inp : Inputs} (hlegal : legal p.fixAll inp.cmd = true)
    (hop : opOf (fieldOp inp.cmd) = some .enc) : codec p inp = enc (fieldSz inp.cmd) inp.valIn := by
  simp [codec, hlegal, hop]

/-- A legal word of OP 01 is answered by `decs` of the period's ports (R70). -/
theorem codec_of_decs {s : State} (hlegal : legal s.params.fixAll s.inp.cmd = true)
    (hop : fieldOp s.inp.cmd = 0b01#2) :
    codec s.params s.inp =
      decs (fieldSz s.inp.cmd) ((kindOf (fieldKind s.inp.cmd)).getD .fp) s.inp.bin s.inp.inPresent s.reqLen := by
  simp [codec, hlegal, hop, opOf, State.reqLen]

/-- A legal word of OP 10 is answered by `decf` (R70). -/
theorem codec_of_decf {p : Params} {inp : Inputs} (hlegal : legal p.fixAll inp.cmd = true)
    (hop : opOf (fieldOp inp.cmd) = some .decf) :
    codec p inp = decf (fieldSz inp.cmd) ((kindOf (fieldKind inp.cmd)).getD .fp) inp.bin := by
  simp [codec, hlegal, hop]

/-- An OP value that is neither reserved nor DECS is that of a family without checks (R63). -/
theorem opOf_of_unchecked {v : BitVec 2} (hres : v ≠ 3) (hdecs : v ≠ 0b01#2) :
    opOf v = some .enc ∨ opOf v = some .decf := by
  revert v; decide

/-! ## The cause of a legal word -/

/-- A response that reports no error, as R144 and R146 have its three error ports. -/
def Response.ReportsNoError (r : Response) : Prop := r.err = false ∧ r.errCause = 0 ∧ r.errMinlen = 0

theorem enc_reportsNoError (sz : BitVec 2) (v : Word) : (enc sz v).ReportsNoError := ⟨rfl, rfl, rfl⟩

theorem decf_reportsNoError (sz : BitVec 2) (k : Kind) (bin : Word) : (decf sz k bin).ReportsNoError :=
  ⟨rfl, rfl, rfl⟩

theorem decs_reportsNoError (sz : BitVec 2) (k : Kind) (bin : Word) {n : Nat} (h : widthOf sz ≤ n) :
    (decs sz k bin true n).ReportsNoError := by
  rw [decs_ok sz k bin h]
  exact ⟨rfl, rfl, rfl⟩

/-- A legal word of a family other than DECS reports no error, whatever the other ports hold (R80, R120). -/
theorem codec_reportsNoError_of_unchecked {p : Params} {inp : Inputs} (hlegal : legal p.fixAll inp.cmd = true)
    (hdecs : fieldOp inp.cmd ≠ 0b01#2) : (codec p inp).ReportsNoError := by
  obtain ⟨-, hres, -⟩ := (legal_iff_fields p.fixAll inp.cmd).mp hlegal
  obtain hop | hop := opOf_of_unchecked hres hdecs
  · rw [codec_of_enc hlegal hop]
    exact enc_reportsNoError _ _
  · rw [codec_of_decf hlegal hop]
    exact decf_reportsNoError _ _ _

/-! ## Coherence and power -/

/-- The response to any inputs is coherent, as the response of every word is (R143, R146, R161). -/
theorem codec_coherent (p : Params) (inp : Inputs) : (codec p inp).Coherent := by
  rw [codec_eq_responseOfWord]
  exact responseOfWord_coherent _ _ _

/-- A power transition keeps the number of stages, whatever they hold after it, and the ports (R164). -/
theorem powerCycle_wf {s : State} (h : s.WF) : s.powerCycle.WF := by
  obtain ⟨hparams, -, hinp, hhost⟩ := h
  exact ⟨hparams, powerCycle_pipe_length s, hinp, hhost⟩

end Sys2Proof.Machine

namespace Sys2Proof.Statements
open Sys2Proof.Machine

/-- Settles O30: `codec` looks at legality first, and of the three datapaths only `decs` checks, presence before
length. -/
theorem errorCausePriority : Obligations.ErrorCausePriority := by
  intro s hrun
  refine ⟨_, step_of_not_resetting ((resetting_eq_false_iff s).mpr hrun), fun hres => ?_, fun hlegal hop hp => ?_,
    fun hlegal hop hp hn => ?_, fun hlegal hchecks => ?_⟩
  · rw [codec_of_reserved hres, raiseIllegalCommand_eq]
    exact ⟨rfl, rfl, rfl⟩
  · rw [codec_of_decs hlegal hop, hp, decs_absent]
    exact ⟨rfl, rfl, ofNat_widthOf_toNat _⟩
  · rw [codec_of_decs hlegal hop, hp, decs_tooShort _ _ _ hn]
    exact ⟨rfl, rfl, ofNat_widthOf_toNat _⟩
  · by_cases hop : fieldOp s.inp.cmd = 0b01#2
    · obtain ⟨hp, hn⟩ := hchecks.resolve_left (not_not.mpr hop)
      rw [codec_of_decs hlegal hop, hp]
      exact decs_reportsNoError _ _ _ hn
    · exact codec_reportsNoError_of_unchecked hlegal hop

/-- Settles O31: a step without reset responds with `codec` of the period's inputs. -/
theorem everyResponseIsCoherent : Obligations.EveryResponseIsCoherent :=
  fun s hrun => ⟨_, step_of_not_resetting ((resetting_eq_false_iff s).mpr hrun), codec_coherent _ _⟩

/-- Settles O38: a power transition changes the stages, the reset mark and the draws alone. -/
theorem powerCycleNeedsReset : Obligations.PowerCycleNeedsReset :=
  fun s hwf => ⟨powerCycle_wf hwf, powerCycle_params s, powerCycle_inp s, powerCycle_host s, powerCycle_resetDone s⟩

end Sys2Proof.Statements
end

section
/-! SUPPORT. The reset family: what a reset edge leaves behind, and the periods after it in which nothing is shown. -/

namespace Sys2Proof.Machine

/-- A clocked period with `rst` = 1 ends with a reset edge (R170, R171). -/
theorem step_of_rst {s : State} (hl : 0 < s.params.latency) (hrst : s.inp.rst = true) :
    step s = .next s.resetEdge := by
  rw [step_eq, if_pos ((resetting_iff s).mpr ⟨hl, hrst⟩)]

/-! ## Periods without a response -/

/-- Nothing stands in the last `n` stages of a machine that has been reset, so it shows nothing for `n` periods. -/
def State.QuietFor (n : Nat) (s : State) : Prop :=
  s.resetDone = true ∧ s.pipe.length = s.params.latency ∧ List.replicate n none <:+ s.pipe

/-- A reset edge quiets the machine for up to LATENCY periods (R171). -/
theorem resetEdge_quietFor {s : State} {n : Nat} (h : n ≤ s.params.latency) : s.resetEdge.QuietFor n := by
  refine ⟨rfl, List.length_replicate, List.replicate (s.params.latency - n) none, ?_⟩
  rw [List.replicate_append_replicate, Nat.sub_add_cancel h, resetEdge_pipe]

/-- A shift moves the invalid stages at the end one place on; the last of them drops out (R28). -/
theorem replicate_none_suffix_shifted {s : State} {n : Nat} (r : Response)
    (hlen : s.pipe.length = s.params.latency) (h : List.replicate (n + 1) none <:+ s.pipe) :
    List.replicate n none <:+ s.shifted r := by
  obtain ⟨front, hpipe⟩ := h
  have hcut : s.params.latency = (s.newStage r :: front).length + n := by
    rw [← hlen, ← hpipe, List.length_append, List.length_replicate, List.length_cons]
    omega
  refine ⟨s.newStage r :: front, ?_⟩
  rw [State.shifted, ← hpipe, hcut, ← List.cons_append, List.take_length_add_append, List.take_replicate,
    Nat.min_eq_left (Nat.le_succ n)]

theorem le_latency_of_quietFor {s : State} {n : Nat} (h : s.QuietFor n) : n ≤ s.params.latency := by
  obtain ⟨-, hlen, hquiet⟩ := h
  simpa [hlen] using hquiet.length_le

/-- Whatever a step does, it uses up one quiet period at most: responding shifts one stage in at the front, and a
reset edge leaves no valid stage. -/
theorem step_quietFor {s t : State} {n : Nat} (h : s.QuietFor (n + 1)) (hst : step s = .next t) : t.QuietFor n := by
  obtain ⟨-, rfl⟩ | ⟨-, r, -, rfl⟩ := step_cases hst
  · exact resetEdge_quietFor (Nat.le_of_succ_le (le_latency_of_quietFor h))
  · obtain ⟨hd, hlen, hquiet⟩ := h
    exact ⟨hd, shifted_length s r hlen, replicate_none_suffix_shifted r hlen hquiet⟩

/-- A period of a machine that is quiet shows no response (R28). -/
theorem clockedOutputs_of_quietFor {s : State} {n : Nat} (h : s.QuietFor (n + 1)) :
    s.clockedOutputs.rspValid = false := by
  obtain ⟨hd, -, front, hpipe⟩ := h
  have hlast : s.lastStage = none := lastStage_of_getLast? (by simp [← hpipe, List.replicate_succ'])
  rw [clockedOutputs_of_invalid hd hlast]

/-- The last of a machine's quiet periods shows no response, whatever the host presents in them. -/
theorem run_shows_nothing (n : Nat) : ∀ {s : State}, s.QuietFor (n + 1) →
    ∃ t, run (n + 1) s = .next t ∧ t.out.rspValid = false := by
  induction n with
  | zero =>
    intro s h
    refine ⟨_, run_succ s _ 0 (step_eq s), ?_⟩
    rw [out_of_step (le_latency_of_quietFor h) (step_eq s)]
    exact clockedOutputs_of_quietFor h
  | succ n ih =>
    intro s h
    rw [run_succ s _ _ (step_eq s)]
    exact ih (step_quietFor h (step_eq s))

end Sys2Proof.Machine

namespace Sys2Proof.Statements
open Sys2Proof.Machine

/-- Settles O36: a reset edge leaves LATENCY quiet periods, and each step uses up one of them. -/
theorem nothingShownRightAfterReset : Obligations.NothingShownRightAfterReset := by
  intro s j hl hrst hj hjl
  obtain ⟨n, rfl⟩ := Nat.exists_eq_add_of_le' hj
  rw [run_succ s _ _ (step_of_rst hl hrst)]
  exact run_shows_nothing n (resetEdge_quietFor hjl)

/-- Settles O35: the step is a reset edge, whose fields are these by definition. -/
theorem resetEdgeClearsThePipeline : Obligations.ResetEdgeClearsThePipeline :=
  fun s hl hrst => ⟨_, step_of_rst hl hrst, resetEdge_pipe s, resetEdge_resetDone s, resetEdge_params s,
    resetEdge_inp s, resetEdge_host s⟩

end Sys2Proof.Statements
end
